-- ==== Sys2Proof/Word.lean ====
section
/-! DEFINITION. The words of the port and of the link (11, "Layouts"): bit 31 is the most significant bit. -/

namespace Sys2Proof

/-- One byte of the Management Port, most significant bit first. -/
abbrev Byte := BitVec 8

/-- One word of a register, a window, a request or a response. -/
abbrev Word := BitVec 32

end Sys2Proof
end

