-- ==== Sys2Proof/Config.lean ====
section
/-! DEFINITION. What the part fixes once for all (00, "Principal numbers"). -/

namespace Sys2Proof.Config

/-- The Binding Table holds 1024 slots (R1). -/
abbrev slotCount : Nat := 1024

/-- Sixteen domains share them (R23). -/
abbrev domainCount : Nat := 16

/-- The Request Queue holds at most 8 requests (R70). -/
abbrev queueDepth : Nat := 8

/-- One pass issue makes at most 64 visits (R167). -/
abbrev visitsPerIssue : Nat := 64

/-- The expiries that can wait for a walk (R99). -/
abbrev maxPendingTicks : Nat := 3

/-- ID reads this constant (R178). -/
abbrev identifier : Word := 0x10160001#32

end Sys2Proof.Config
end

