-- ==== Sys2Proof/Syntax.lean ====
section
/-! DEFINITION. The events of spec/opcode_table.json: one constructor of `Instr` for each row, with the row's operands. -/

namespace Sys2Proof

/-- The nineteen commands of Table 11-4 (R184). -/
inductive Command where
  | writeSlot | setVerdict | hold | release | confirm | pin | unpin | retire | readSlot
  | scan | sweep
  | setDescriptor | exchange | setState | snapshot | restore | counters | clearConditions
  | reset
  deriving DecidableEq, Repr

/-- The bytes of a COMMAND frame after its opcode (R181), as operands. -/
structure Operands where
  rpl    : Byte
  slot   : BitVec 16
  gen    : Byte
  domain : Byte
  flags  : Word
  value  : Word
  deriving DecidableEq, Repr

/-- The eight words of a request of the Lookup Link, word 0 first (R187, Table 11-9). -/
abbrev RequestWords := Vector Word 8

/-- The six kinds of frame (R176). -/
inductive FrameKind where
  | regRead | regWrite | windowRead | windowWrite | command | summary
  deriving DecidableEq, Repr

/-- The events that open a frame (R176). -/
inductive FrameOpening where
  /-- CS_N falls: a frame begins. -/
  | fall
  /-- The first byte, the frame code, completes: the port decides the frame kind. -/
  | code (c : Byte)
  deriving DecidableEq, Repr

/-- The byte completions of a REG_READ frame, after its frame code, that have an effect (R176, R177). -/
inductive RegReadEvent where
  /-- The address byte completes: the register's value is taken. -/
  | address (a : Byte)
  /-- The fourth data byte completes: the word has been sent in full. -/
  | sent
  deriving DecidableEq, Repr

/-- The byte completions of a WINDOW_READ frame, after its frame code, that have an effect (R179). -/
inductive WindowReadEvent where
  /-- The start word byte completes: the first word's value is taken. -/
  | header (window start : Byte)
  /-- The last byte of the word being sent completes: the next word's value is taken. -/
  | word
  deriving DecidableEq, Repr

/-- The byte completions of a WINDOW_WRITE frame, after its frame code, that have an effect (R179). -/
inductive WindowWriteEvent where
  /-- The start word byte completes. -/
  | header (window start : Byte)
  /-- The fourth byte of a data word completes. -/
  | word (data : Word)
  deriving DecidableEq, Repr

/-- The byte completions of a SUMMARY frame that have an effect (R182). -/
inductive SummaryEvent where
  /-- The frame code completes: SUMMARY_START is read and the first word's value is taken. -/
  | code
  /-- The last byte of the word being sent completes: the next word's value is taken. -/
  | word
  deriving DecidableEq, Repr

/-- The rows of spec/opcode_table.json, in the table's order. -/
inductive Instr where
  -- resets and INIT
  | powerOn
  | resetNAssert
  | resetNRelease
  | tableClearingCompletion
  | linkResetAssert
  | linkResetRelease
  -- the Lookup Link and the Search Engine
  | requestArrival (words : RequestWords)
  | takeHead
  | lookupSearchEvent
  | probeSearchEvent
  | touchSearchEvent
  -- the Ageing Engine
  | ageTimerExpiry
  | walkStart
  | walkStep
  -- COMMAND frames, at their last operand byte
  | writeSlot (o : Operands)
  | setVerdict (o : Operands)
  | hold (o : Operands)
  | release (o : Operands)
  | confirm (o : Operands)
  | pin (o : Operands)
  | unpin (o : Operands)
  | retire (o : Operands)
  | readSlot (o : Operands)
  | scan (o : Operands)
  | sweep (o : Operands)
  | setDescriptor (o : Operands)
  | exchange (o : Operands)
  | setState (o : Operands)
  | snapshot (o : Operands)
  | restore (o : Operands)
  | counters (o : Operands)
  | clearConditions (o : Operands)
  | reset (o : Operands)
  | unknownCommand (opcode : Byte) (o : Operands)
  -- the Command Engine's own events
  | commandGrant
  | passVisit
  | descriptorExaminationGrant
  | restoreExaminationGrant
  | commandCompletion
  | restoreCompletion
  -- ATTN
  | attnPulseEnd
  -- the other frames of the Management Port
  | controlWrite (data : Word)
  | ageStepWrite (data : Word)
  | deviceConditionsWrite (data : Word)
  | deviceMaskWrite (data : Word)
  | regWrite (address : Byte) (data : Word)
  | statusRead (e : RegReadEvent)
  | windowRead (e : WindowReadEvent)
  | windowWrite (e : WindowWriteEvent)
  | summary (e : SummaryEvent)
  /-- The opening of a frame: the fall of CS_N, and the completion of the frame code. A code that names no kind is the event the row is named
  after; the fall and the codes that name a kind have no row of their own, but for SUMMARY's code, at which its row acts (log entry 8). -/
  | frameError (e : FrameOpening)
  | frameEnd
  deriving DecidableEq, Repr

end Sys2Proof
end

