-- ==== Sys2Proof/Machine/State.lean ====
section
/-! DEFINITION. The state of the NB1016: every piece of state its spec names, as plain data, and its value after a full reset. -/

namespace Sys2Proof.Machine

/-! ### The Binding Table (01) -/

/-- The life state of a slot (R1). -/
inductive SlotState where
  | free | provisional | live | held
  deriving DecidableEq, Repr

/-- The role a binding answers; a request's role is SOURCE or DESTINATION (R3, R45). -/
inductive Role where
  | source | destination | either
  deriving DecidableEq, Repr

/-- Activity levels, each deeper than the one before it (R7). -/
inductive Level where
  | active | rest1 | rest2 | rest3
  deriving DecidableEq, Repr

/-- The action of a verdict (R6). -/
inductive Action where
  | drop | forward | divert
  deriving DecidableEq, Repr

/-- A verdict (R6). -/
structure Verdict where
  action : Action
  cls    : BitVec 3
  group  : BitVec 6
  mark   : Byte
  deriving DecidableEq, Repr

/-- A station address, a0 first on the wire (R3). -/
structure Addr where
  a0 : Byte
  a1 : Byte
  a2 : Byte
  a3 : Byte
  a4 : Byte
  a5 : Byte
  deriving DecidableEq, Repr

/-- A network address with its family (R4, R45). -/
inductive NetAddress where
  | v4 (address : BitVec 32)
  | v6 (address : BitVec 128)
  deriving DecidableEq, Repr

/-- The network part of a binding: FAMILY and NET_ADDR, PREFIX, INVERT (R4). -/
structure NetPart where
  address : NetAddress
  pre     : Byte
  invert  : Bool
  deriving DecidableEq, Repr

/-- A port range (R5). -/
structure Ports where
  lo : BitVec 16
  hi : BitVec 16
  deriving DecidableEq, Repr

/-- The binding record of Table 1-1 (R2). -/
structure Slot where
  state       : SlotState
  gen         : Byte
  domain      : BitVec 4
  addr        : Addr
  /-- ADDR_MASK as a set of positions, bit 5 for a0 down to bit 0 for a5 (Table 11-6). -/
  addrMask    : BitVec 6
  role        : Role
  net         : Option NetPart
  ports       : Option Ports
  proto       : Option Byte
  verdict     : Verdict
  level       : Level
  idle        : BitVec 16
  pinned      : Bool
  learned     : Bool
  readPending : Bool
  frames      : BitVec 32
  octets      : BitVec 40
  deriving DecidableEq, Repr

/-- The requesters of the Table Arbiter (R16). -/
inductive Requester where
  | search | command | ageing
  deriving DecidableEq, Repr

/-! ### The Domain Table (02) -/

/-- The service state of a domain (R32). -/
inductive DomainState where
  | off | on | frozen
  deriving DecidableEq, Repr

/-- A run of consecutive slots (R25). -/
structure Segment where
  base : Nat
  size : Nat
  deriving DecidableEq, Repr

/-- The two segments of a domain, by name (R27). -/
inductive SegmentName where
  | active | standby
  deriving DecidableEq, Repr

/-- The fields from ACTIVE_BASE to MASK of Table 2-1 (R23). -/
structure Descriptor where
  active         : Segment
  standby        : Segment
  lookupLevel    : BitVec 2
  learnLevel     : BitVec 2
  editLevel      : BitVec 2
  learning       : Bool
  autoRetire     : Bool
  readClears     : Bool
  countStop      : Bool
  period1        : BitVec 16
  period2        : BitVec 16
  period3        : BitVec 16
  period4        : BitVec 16
  provPeriod     : BitVec 16
  defaultVerdict : Verdict
  provVerdict    : Verdict
  /-- MASK as a condition set, in the positions of Table 11-7. -/
  mask           : BitVec 8
  deriving DecidableEq, Repr

/-- The eight domain counters (R120). -/
structure Counters where
  lookups  : BitVec 32
  hits     : BitVec 32
  heldHits : BitVec 32
  misses   : BitVec 32
  denied   : BitVec 32
  learned  : BitVec 32
  aged     : BitVec 32
  touches  : BitVec 32
  deriving DecidableEq, Repr

/-- A pass position (R164). -/
structure Cursor where
  segment : SegmentName
  offset  : Nat
  deriving DecidableEq, Repr

/-- The domain record of Table 2-1 (R23). -/
structure DomainRecord where
  state     : DomainState
  desc      : Descriptor
  /-- STICKY as a condition set, in the positions of Table 11-7. -/
  sticky    : BitVec 8
  counters  : Counters
  cursor    : Option Cursor
  restoring : Bool
  deriving DecidableEq, Repr

/-! ### The Lookup Link (04) -/

/-- The key of a LOOKUP or PROBE (R45); ROLE is SOURCE or DESTINATION in every admitted request (R46). -/
structure Key where
  role  : Role
  addr  : Addr
  net   : Option NetAddress
  port  : Option (BitVec 16)
  proto : Option Byte
  deriving DecidableEq, Repr

/-- What a request asks, with the fields its KIND uses (R47, R62). -/
inductive Question where
  | lookup (learn : Bool) (key : Key) (length : BitVec 16)
  | probe (key : Key)
  | touch (slot : BitVec 10) (gen : Byte)
  deriving DecidableEq, Repr

/-- A request (R62). -/
structure Request where
  tag      : BitVec 6
  domain   : BitVec 4
  rpl      : BitVec 2
  question : Question
  deriving DecidableEq, Repr

/-- The thirteen outcomes (R64). -/
inductive LinkOutcome where
  | hit | provisional | learned | touched | held | none | noAccess | defaulted | fault | off | busy | notReady | malformed
  deriving DecidableEq, Repr

/-- The eight domain conditions (R127). -/
inductive Condition where
  | denied | stale | held | full | miss | half | wrap | aged
  deriving DecidableEq, Repr

/-- The three device conditions (R132). -/
inductive DeviceCondition where
  | ageOverrun | linkError | queueFull
  deriving DecidableEq, Repr

/-- A handle: a slot index with a generation (section 1.5). -/
structure Handle where
  slot : Nat
  gen  : Byte
  deriving DecidableEq, Repr

/-- A response (R63). -/
structure Response where
  tag       : BitVec 6
  outcome   : LinkOutcome
  condition : Option Condition
  handle    : Option Handle
  verdict   : Option Verdict
  deriving DecidableEq, Repr

/-! ### The Ageing Engine (06) -/

/-- A walk in flight: the ticks it applies and the next slot to be stepped (R100). -/
structure Walk where
  k    : Nat
  next : Nat
  deriving DecidableEq, Repr

/-! ### The Command Engine (09) -/

/-- The sixteen result codes, in the order of R150. -/
inductive ResultCode where
  | done | found | partialPass | endOfPass
  | unknownCommand | badSlot | denied | notInSegment | stale | wrongState | badRecord | occupied
  | overlap | stranded | domainOn | staleCursor
  deriving DecidableEq, Repr

/-- The five fields of the RESULT window (R149). -/
structure Result where
  code   : ResultCode
  slot   : Nat
  gen    : Byte
  cursor : Option Cursor
  count  : Nat
  deriving DecidableEq, Repr

/-- The copy of a staging window made at a take (R145). -/
inductive Staged where
  | absent
  | binding (words : Vector Word 16)
  | domain (words : Vector Word 24)
  deriving DecidableEq, Repr

/-- How far the command in flight has gone, and so which event it waits for (R148). -/
inductive Progress where
  /-- Refused at its take: it completes at the engine's next event with this code (R145). -/
  | refused (code : ResultCode)
  /-- Nothing is left but its completion event. -/
  | complete
  /-- A one-slot command whose claim waits (R152). -/
  | grant
  /-- An examination whose claim for this slot waits (R39, R174). -/
  | examine (slot : Nat)
  /-- A pass whose claim for the slot at this offset waits, with the visits made and the slots retired so far (R167). -/
  | visit (offset visits retired : Nat)
  deriving DecidableEq, Repr

/-- The command in flight (R144, Table 9-2). -/
structure InFlight where
  /-- `none` for a frame whose opcode names no command, until it completes (R151). -/
  command  : Option Command
  level    : BitVec 2
  domain   : Byte
  slot     : BitVec 16
  gen      : Byte
  flags    : Word
  value    : Word
  staged   : Staged
  progress : Progress
  deriving DecidableEq, Repr

/-- The engine states (R143); BUSY holds the command in flight. -/
inductive Engine where
  | init
  | idle
  | busy (c : InFlight)
  deriving DecidableEq, Repr

/-! ### Attention and the Management Port (08, 11) -/

/-- How S reaches the line (section 8.5). -/
inductive AttnMode where
  | level | pulse
  deriving DecidableEq, Repr

/-- Which electrical level means asserted (R136). -/
inductive AttnPolarity where
  | low | high
  deriving DecidableEq, Repr

/-- The frame in progress on the Management Port (R176). -/
inductive Frame where
  /-- CS_N is high. -/
  | idle
  /-- CS_N has fallen and the frame code has not completed (R176). -/
  | selected
  /-- The frame code of a kind has completed, and no byte after it has had an effect yet (R176). -/
  | opened (kind : FrameKind)
  /-- A REG_READ whose value has been taken and is being sent (R177). -/
  | regRead (address : Byte) (word : Word)
  /-- A WINDOW_READ sending the word at a position, with the value taken for it (R179). -/
  | windowRead (window : Byte) (position : Nat) (word : Word)
  /-- A WINDOW_WRITE whose next data word goes to a position (R179). -/
  | windowWrite (window : Byte) (position : Nat)
  /-- A SUMMARY sending the summary word of an index, with the value taken for it (R182). -/
  | summary (index : Nat) (word : Word)
  /-- CS_N is low and every further byte is ignored: after the last defined byte, an unknown code, or a reset (R176, R188). -/
  | ignoring
  deriving DecidableEq, Repr

/-! ### The whole part -/

/-- The state of the part, block by block (00, "Block overview"). -/
structure State where
  -- the input lines
  /-- RESET_N is asserted (R188). -/
  resetHeld      : Bool
  /-- LINK_RESET is asserted (R82). -/
  linkReset      : Bool
  -- Binding Table and Table Arbiter
  slots          : Vector Slot Config.slotCount
  searchClaim    : Bool
  commandClaim   : Bool
  ageingClaim    : Bool
  lastGranted    : Requester
  -- Domain Table
  domains        : Vector DomainRecord Config.domainCount
  -- Link Interface and Search Engine
  /-- The Request Queue, head first (R70). -/
  queue          : List Request
  linkLevel      : BitVec 2
  /-- The Search Engine is HOLDING the head request (R71). -/
  holding        : Bool
  -- Ageing Engine
  ageStep        : BitVec 8
  /-- The length, in units of 10 ms, of the interval in progress; `none` while the timer does not run (R98). -/
  ageInterval    : Option (BitVec 8)
  pendingTicks   : Nat
  /-- `none` is the walk state IDLE (R100). -/
  walk           : Option Walk
  -- Command Engine
  engine         : Engine
  refused        : Bool
  -- Attention Controller
  attnEnable     : Bool
  attnMode       : AttnMode
  attnPolarity   : AttnPolarity
  /-- An ATTN pulse is in progress (R137). -/
  pulse          : Bool
  deviceSticky   : BitVec 3
  deviceMask     : BitVec 3
  -- Management Port
  summaryStart   : BitVec 3
  frameError     : Bool
  frame          : Frame
  stagingBinding : Vector Word 16
  stagingDomain  : Vector Word 24
  bindingView    : Vector Word 16
  snapshot       : Vector Word 24
  result         : Result
  -- the model's own fields (log entry 9)
  /-- Every response sent over the Lookup Link, oldest first. -/
  responses      : List Response
  /-- Every word sent in full on SDO as output data, oldest first. -/
  sdoWords       : List Word
  /-- The events waiting to be taken, first in, first out. -/
  pending        : List Instr
  deriving DecidableEq, Repr

/-- Why an event cannot be taken where the queue puts it. Every event of a line (CS_N among them) and every request is always taken; only
an event of an inner engine, or the completion of a frame's byte, can be out of place, and then the spec gives it no occurrence at all.
All are raised in place of an event that cannot occur there, and all are SAFE (log entry 2). -/
inductive Fault where
  /-- Raised by TABLE_CLEARING_COMPLETION when no clearing runs: the part is not in INIT, or RESET_N is held (R22). Safe. -/
  | noClearing
  /-- Raised by TAKE_HEAD when the Search Engine is HOLDING or the queue is empty (R71). Safe. -/
  | noHeadToTake
  /-- Raised by a grant event when the Table Arbiter's next grant is not this event: its requester is not the one the grant order
  gives, or the work the claim was placed for is of another row (R16). Safe. -/
  | grantNotDue
  /-- Raised by AGE_TIMER_EXPIRY while the age timer does not run (R98). Safe. -/
  | timerStopped
  /-- Raised by WALK_START when R100's three conditions do not hold. Safe. -/
  | walkNotDue
  /-- Raised by COMMAND_COMPLETION and RESTORE_COMPLETION when no command waits for that event (R148). Safe. -/
  | noCompletionDue
  /-- Raised by ATTN_PULSE_END when no pulse is in progress (R137). Safe. -/
  | noPulse
  /-- Raised by the completion of a byte that the frame in progress cannot bring: CS_N is high, or the frame is of another kind, or has not
  come to that byte, or is past it (R176). Safe. -/
  | noSuchFrame
  deriving DecidableEq, Repr

/-- Rejections. Every row has its meaning and no meaning refuses, so none of these is ever answered. -/
inductive Refusal where
  /-- An event with no meaning in the model yet: raised by `exec` only; no arm raises it. Safe. -/
  | notModelled (mnemonic : String)
  deriving DecidableEq, Repr

/-! ### Values after a full reset -/

/-- DROP, CLASS 0, GROUP 0, MARK 0 (R10, Table 2-1). -/
def Verdict.zero : Verdict := { action := .drop, cls := 0, group := 0, mark := 0 }

/-- Six zero octets (R10). -/
def Addr.zero : Addr := { a0 := 0, a1 := 0, a2 := 0, a3 := 0, a4 := 0, a5 := 0 }

/-- The FREE record with a given generation (R10). -/
def Slot.free (gen : Byte) : Slot :=
  { state := .free, gen := gen, domain := 0, addr := .zero, addrMask := 0, role := .source
    net := none, ports := none, proto := none, verdict := .zero, level := .active, idle := 0
    pinned := false, learned := false, readPending := false, frames := 0, octets := 0 }

/-- All eight counters at one value (R121, R124). -/
def Counters.all (c : BitVec 32) : Counters :=
  { lookups := c, hits := c, heldHits := c, misses := c, denied := c, learned := c, aged := c, touches := c }

/-- The descriptor after a full reset (Table 2-1). -/
def Descriptor.reset : Descriptor :=
  { active := ⟨0, 0⟩, standby := ⟨0, 0⟩, lookupLevel := 0, learnLevel := 0, editLevel := 0
    learning := false, autoRetire := false, readClears := false, countStop := false
    period1 := 0, period2 := 0, period3 := 0, period4 := 0, provPeriod := 0
    defaultVerdict := .zero, provVerdict := .zero, mask := 0xFF#8 }

/-- The domain record after a full reset (Table 2-1). -/
def DomainRecord.reset : DomainRecord :=
  { state := .off, desc := .reset, sticky := 0, counters := .all 0, cursor := none, restoring := false }

/-- An all-zero RESULT window (R149, R186). -/
def Result.zero : Result := { code := .done, slot := 0, gen := 0, cursor := none, count := 0 }

/-- The part right after its power-on full reset: R21, R23, R83, R111, R142, R144, R178, R180, R188 for the part's own state; the
lines' levels are the model's (DESIGN CHOICE, log entry 5) and the model's own fields are empty (log entry 9). -/
def State.reset : State :=
  { resetHeld := false, linkReset := false
    slots := Vector.replicate _ (Slot.free 0)
    searchClaim := false, commandClaim := false, ageingClaim := false, lastGranted := .ageing
    domains := Vector.replicate _ DomainRecord.reset
    queue := [], linkLevel := 3, holding := false
    ageStep := 25, ageInterval := none, pendingTicks := 0, walk := none
    engine := .init, refused := false
    attnEnable := false, attnMode := .level, attnPolarity := .low, pulse := false
    deviceSticky := 0, deviceMask := 7
    summaryStart := 0, frameError := false, frame := .idle
    stagingBinding := Vector.replicate _ 0, stagingDomain := Vector.replicate _ 0
    bindingView := Vector.replicate _ 0, snapshot := Vector.replicate _ 0
    result := .zero
    responses := [], sdoWords := [], pending := [] }

end Sys2Proof.Machine
end

