-- ==== Sys2Proof/Machine/Flags.lean ====
section
/-! DEFINITION. Condition sets, the counters with the conditions they raise, and the outcome rule. -/

namespace Sys2Proof.Machine

/-! ### Condition sets (Table 11-7, Table 11-2) -/

/-- The position of a condition in a condition set (Table 11-7). -/
def Condition.bit : Condition → BitVec 8
  | .denied => 0x80 | .stale => 0x40 | .held => 0x20 | .full => 0x10
  | .miss => 0x08 | .half => 0x04 | .wrap => 0x02 | .aged => 0x01

/-- A condition is a member of a set. -/
def inSet (set : BitVec 8) (c : Condition) : Bool := set &&& c.bit != 0

/-- The position of a device condition (Table 11-2). -/
def DeviceCondition.bit : DeviceCondition → BitVec 3
  | .ageOverrun => 4 | .linkError => 2 | .queueFull => 1

/-- To raise a condition is to add it to STICKY, whether or not MASK holds it (R128). -/
def DomainRecord.raise (c : Condition) (d : DomainRecord) : DomainRecord := { d with sticky := d.sticky ||| c.bit }

/-- To raise a condition if a test holds. -/
def DomainRecord.raiseIf (b : Bool) (c : Condition) (d : DomainRecord) : DomainRecord := if b then d.raise c else d

/-! ### Domain counters (R121) -/

/-- The names of the eight domain counters (R120). -/
inductive Counter where
  | lookups | hits | heldHits | misses | denied | learned | aged | touches
  deriving DecidableEq, Repr

/-- A counter's value. -/
def Counters.get (c : Counters) : Counter → BitVec 32
  | .lookups => c.lookups | .hits => c.hits | .heldHits => c.heldHits | .misses => c.misses
  | .denied => c.denied | .learned => c.learned | .aged => c.aged | .touches => c.touches

/-- One counter set to a value. -/
def Counters.set (c : Counters) (v : BitVec 32) : Counter → Counters
  | .lookups => { c with lookups := v } | .hits => { c with hits := v }
  | .heldHits => { c with heldHits := v } | .misses => { c with misses := v }
  | .denied => { c with denied := v } | .learned => { c with learned := v }
  | .aged => { c with aged := v } | .touches => { c with touches := v }

/-- The top of a 32-bit counter. -/
abbrev top32 : Nat := 2 ^ 32 - 1

/-- The top of OCTETS. -/
abbrev top40 : Nat := 2 ^ 40 - 1

/-- The value of a 32-bit counter after one increment: at its top it is held under COUNT_STOP and passes to 0 without (R113, R121). -/
def countedValue (countStop : Bool) (v : BitVec 32) : BitVec 32 :=
  if v.toNat = top32 then (if countStop then v else 0) else v + 1

/-- An increment raises WRAP when it brings the counter to its top, or holds it there (R113, R121). -/
def countWraps (countStop : Bool) (v : BitVec 32) : Bool :=
  if v.toNat = top32 then countStop else v.toNat + 1 == top32

/-- An increment raises HALF when it brings a domain counter to 2^31 (R121). -/
def countHalves (v : BitVec 32) : Bool := v.toNat + 1 == 2 ^ 31

/-- One increment of a domain counter, with HALF and WRAP raised in the same event (R121). -/
def DomainRecord.count (n : Counter) (d : DomainRecord) : DomainRecord :=
  let v := d.counters.get n
  ({ d with counters := d.counters.set (countedValue d.desc.countStop v) n }.raiseIf (countHalves v) .half).raiseIf
    (countWraps d.desc.countStop v) .wrap

/-! ### Binding counters (R113, R114) -/

/-- OCTETS after LENGTH is added: the full sum, held at the top under COUNT_STOP and taken modulo 2^40 without (R114). -/
def octetsAfter (countStop : Bool) (v : BitVec 40) (length : BitVec 16) : BitVec 40 :=
  if v.toNat + length.toNat < top40 then BitVec.ofNat 40 (v.toNat + length.toNat)
  else if countStop then BitVec.ofNat 40 top40
  else BitVec.ofNat 40 (v.toNat + length.toNat)

/-- The addition raises WRAP when the sum is the top or more (R114). -/
def octetsWrap (v : BitVec 40) (length : BitVec 16) : Bool := decide (top40 ≤ v.toNat + length.toNat)

/-- A refresh: IDLE 0 and LEVEL ACTIVE (R97). -/
def Slot.refresh (r : Slot) : Slot := { r with idle := 0, level := .active }

/-- A counted hit on the matched slot (R74). -/
def Slot.countHit (countStop : Bool) (length : BitVec 16) (r : Slot) : Slot :=
  { r with
    frames := countedValue countStop r.frames
    octets := octetsAfter countStop r.octets length
    readPending := true
    idle := 0
    level := .active }

/-- A counted hit raises WRAP when FRAMES or OCTETS does (R113, R114). -/
def hitWraps (countStop : Bool) (length : BitVec 16) (r : Slot) : Bool :=
  countWraps countStop r.frames || octetsWrap r.octets length

/-! ### The outcome rule (R130) -/

/-- The lookup-deciding conditions in the condition order (R127). -/
def conditionOrder : List Condition := [.denied, .stale, .held, .full, .miss]

/-- The outcome rule: over the conditions raised at the event, FAULT with the first unmasked one, or DEFAULTED with the first one when
all are masked (R130). -/
def outcomeRule (raised : List Condition) (mask : BitVec 8) : LinkOutcome × Option Condition :=
  let inOrder := conditionOrder.filter (fun c => c ∈ raised)
  match inOrder.find? (fun c => !inSet mask c) with
  | some c => (.fault, some c)
  | none => (.defaulted, inOrder.head?)

end Sys2Proof.Machine
end

