-- ==== Sys2Proof/Machine/Operands.lean ====
section
/-! DEFINITION. The layouts of section 11.6: the records as window words, the requests and responses as link words, the criteria in
the flags operand; each reading of words is total, with its validity check beside it (R46, R48, R37, R165). -/

namespace Sys2Proof.Machine

/-- The `len` bits of a word from bit `lo` up. -/
abbrev field (w : Word) (lo len : Nat) : BitVec len := w.extractLsb' lo len

/-- A flag as one bit. -/
def bit (b : Bool) : BitVec 1 := BitVec.ofBool b

/-- Word `i` of a window, zero past its last word (R179). -/
def wordAt {n : Nat} (v : Vector Word n) (i : Nat) : Word := (v[i]?).getD 0

/-! ### Codes -/

/-- STATE of a binding record (Table 11-6). -/
def SlotState.code : SlotState → Byte
  | .free => 0 | .provisional => 1 | .live => 2 | .held => 3

/-- The requested state of a staging record: LIVE or HELD (R185); every other code fails `bindingValid`. -/
def requestedStateOf (c : Byte) : SlotState := if c = 3 then .held else .live

/-- ROLE (Table 11-6). -/
def Role.code : Role → Byte
  | .source => 0 | .destination => 1 | .either => 2

/-- ROLE from its code; codes above 2 fail the validity checks. -/
def roleOf {n : Nat} (c : BitVec n) : Role :=
  if c.toNat = 0 then .source else if c.toNat = 1 then .destination else .either

/-- LEVEL (Table 11-6). -/
def Level.code : Level → BitVec 2
  | .active => 0 | .rest1 => 1 | .rest2 => 2 | .rest3 => 3

/-- LEVEL from its code (Tables 11-5, 11-6). -/
def levelOf (c : BitVec 2) : Level :=
  if c = 0 then .active else if c = 1 then .rest1 else if c = 2 then .rest2 else .rest3

/-- ACTION (Table 11-6). -/
def Action.code : Action → Byte
  | .drop => 0 | .forward => 1 | .divert => 2

/-- ACTION from its code; codes above 2 fail `verdictValid`. -/
def actionOf (c : Byte) : Action := if c = 0 then .drop else if c = 1 then .forward else .divert

/-- STATE of a domain record (Table 11-7) and of SET_STATE (R184). -/
def DomainState.code : DomainState → Byte
  | .off => 0 | .on => 1 | .frozen => 2

/-- The domain state a code names (R34, R173). -/
def domainStateOf (c : Byte) : Option DomainState :=
  if c = 0 then some .off else if c = 1 then some .on else if c = 2 then some .frozen else none

/-- RESULT_CODE (Table 11-8). -/
def ResultCode.code : ResultCode → Byte
  | .done => 0 | .found => 1 | .partialPass => 2 | .endOfPass => 3
  | .unknownCommand => 4 | .badSlot => 5 | .denied => 6 | .notInSegment => 7
  | .stale => 8 | .wrongState => 9 | .badRecord => 10 | .occupied => 11
  | .overlap => 12 | .stranded => 13 | .domainOn => 14 | .staleCursor => 15

/-- OUTCOME (Table 11-10). -/
def LinkOutcome.code : LinkOutcome → BitVec 4
  | .hit => 0 | .provisional => 1 | .learned => 2 | .touched => 3 | .held => 4 | .none => 5 | .noAccess => 6
  | .defaulted => 7 | .fault => 8 | .off => 9 | .busy => 10 | .notReady => 11 | .malformed => 12

/-- CONDITION of a response (Table 11-10); only the five lookup-deciding conditions are ever reported (R130). -/
def conditionCode : Option Condition → BitVec 3
  | some .denied => 1 | some .stale => 2 | some .held => 3 | some .full => 4 | some .miss => 5
  | some .half | some .wrap | some .aged | none => 0

/-- A segment's name as its bit (Tables 11-5, 11-8). -/
def SegmentName.code : SegmentName → BitVec 1
  | .active => 0 | .standby => 1

/-- The engine state of STATUS (Table 11-2). -/
def Engine.code : Engine → BitVec 2
  | .init => 0 | .idle => 1 | .busy _ => 2

/-! ### Verdicts (word 9 of Table 11-6) -/

/-- A verdict as a word. -/
def Verdict.word (v : Verdict) : Word :=
  v.action.code ++ (0#5 ++ v.cls) ++ (0#2 ++ v.group) ++ v.mark

/-- ACTION, CLASS and GROUP lie in their ranges; every MARK does (R37, R48). -/
def verdictValid (w : Word) : Bool :=
  (field w 24 8).toNat ≤ 2 && (field w 16 8).toNat ≤ 7 && (field w 8 8).toNat ≤ 63

/-- The verdict a valid word holds. -/
def verdictOf (w : Word) : Verdict :=
  { action := actionOf (field w 24 8), cls := field w 16 3, group := field w 8 6, mark := field w 0 8 }

/-! ### Binding records (Table 11-6) -/

/-- FAMILY (Tables 11-6, 11-9). -/
def NetAddress.family : NetAddress → Byte
  | .v4 _ => 0 | .v6 _ => 1

/-- NET_ADDR in 128 bits, first bit first; a V4 address fills word 4 and the rest is zero. -/
def NetAddress.bits : NetAddress → BitVec 128
  | .v4 a => a ++ 0#96
  | .v6 a => a

/-- The greatest PREFIX of a family (R4). -/
def NetAddress.maxPrefix : NetAddress → Nat
  | .v4 _ => 32 | .v6 _ => 128

/-- Four words as 128 bits, first bit at bit 31 of the first. -/
def bits128 (w4 w5 w6 w7 : Word) : BitVec 128 := w4 ++ w5 ++ w6 ++ w7

/-- The network address of a FAMILY code and four words; the words past the first of a V4 address are ignored (R47, R48). -/
def netAddressOf {n : Nat} (family : BitVec n) (w4 w5 w6 w7 : Word) : NetAddress :=
  if family.toNat = 0 then .v4 w4 else .v6 (bits128 w4 w5 w6 w7)

/-- The six octets of words 2 and 3 (Tables 11-6, 11-9). -/
def addrOf (w2 w3 : Word) : Addr :=
  { a0 := field w2 24 8, a1 := field w2 16 8, a2 := field w2 8 8, a3 := field w2 0 8
    a4 := field w3 24 8, a5 := field w3 16 8 }

/-- FAMILY, PREFIX, INVERT and NET_ADDR of an optional network part; an absent part shows zeros (R185). -/
def netFields (n : Option NetPart) : Byte × Byte × Bool × BitVec 128 :=
  match n with
  | some p => (p.address.family, p.pre, p.invert, p.address.bits)
  | none => (0, 0, false, 0)

/-- A binding record as the sixteen words of BINDING_VIEW (R185, Table 11-6). -/
def Slot.words (r : Slot) : Vector Word 16 :=
  let (family, pre, invert, addr) := netFields r.net
  let (lo, hi) := match r.ports with | some p => (p.lo, p.hi) | none => (0, 0)
  #v[r.state.code ++ r.gen ++ (0#4 ++ r.domain) ++ (0#6 ++ r.level.code),
     r.role.code ++ (0#2 ++ r.addrMask) ++
       (bit r.net.isSome ++ bit r.ports.isSome ++ bit r.proto.isSome ++ bit invert ++ bit r.pinned ++ bit r.learned ++
         bit r.readPending ++ 0#1) ++ r.proto.getD 0,
     r.addr.a0 ++ r.addr.a1 ++ r.addr.a2 ++ r.addr.a3,
     r.addr.a4 ++ r.addr.a5 ++ family ++ pre,
     addr.extractLsb' 96 32, addr.extractLsb' 64 32, addr.extractLsb' 32 32, addr.extractLsb' 0 32,
     lo ++ hi,
     r.verdict.word,
     0#16 ++ r.idle,
     r.frames,
     0#24 ++ r.octets.extractLsb' 32 8,
     r.octets.extractLsb' 0 32,
     0, 0]

/-- What WRITE_SLOT takes from the staging binding record (section 3.2). -/
structure StagedBinding where
  state    : SlotState
  pinned   : Bool
  addr     : Addr
  addrMask : BitVec 6
  role     : Role
  net      : Option NetPart
  ports    : Option Ports
  proto    : Option Byte
  verdict  : Verdict
  deriving DecidableEq, Repr

/-- The presence flags of word 1 (Table 11-6). -/
def netPresent (w1 : Word) : Bool := w1.getLsbD 15
/-- PORTS present. -/
def portsPresent (w1 : Word) : Bool := w1.getLsbD 14
/-- PROTO present. -/
def protoPresent (w1 : Word) : Bool := w1.getLsbD 13

/-- The check of R48 on a copied staging binding record; the fields of an absent part are not judged. -/
def bindingValid (v : Vector Word 16) : Bool :=
  (field v[1] 24 8).toNat ≤ 2 &&
  (!netPresent v[1] ||
    ((field v[3] 8 8).toNat ≤ 1 && (field v[3] 0 8).toNat ≤ (netAddressOf (field v[3] 8 8) v[4] v[5] v[6] v[7]).maxPrefix)) &&
  (!portsPresent v[1] || (field v[8] 16 16).toNat ≤ (field v[8] 0 16).toNat) &&
  verdictValid v[9] &&
  (field v[0] 24 8 == 2 || field v[0] 24 8 == 3)

/-- The positions that Table 11-6 lists in each word of a binding record. Every other position is ignored when written and zero when read
(section 11.6). -/
def bindingPositions : Vector Word 16 :=
  #v[0xFFFFFF03#32, 0xFF3FFEFF#32, .allOnes 32, .allOnes 32, .allOnes 32, .allOnes 32, .allOnes 32, .allOnes 32,
     .allOnes 32, .allOnes 32, 0x0000FFFF#32, .allOnes 32, 0x000000FF#32, .allOnes 32, 0, 0]

/-- Word `i` of a staging binding record as a read shows it: the listed positions, and zero in words 5 to 7 of a V4 address (section 11.6,
Table 11-6, log entry 20). -/
def shownBindingWord (v : Vector Word 16) (i : Nat) : Word :=
  if 5 ≤ i ∧ i ≤ 7 ∧ field v[3] 8 8 = 0 then 0 else wordAt v i &&& wordAt bindingPositions i

/-- The record that a valid copy holds; an absent part keeps none of its values (R48). -/
def bindingOf (v : Vector Word 16) : StagedBinding :=
  { state := requestedStateOf (field v[0] 24 8)
    pinned := v[1].getLsbD 11
    addr := addrOf v[2] v[3]
    addrMask := field v[1] 16 6
    role := roleOf (field v[1] 24 8)
    net := if netPresent v[1] then
        some { address := netAddressOf (field v[3] 8 8) v[4] v[5] v[6] v[7], pre := field v[3] 0 8, invert := v[1].getLsbD 12 }
      else none
    ports := if portsPresent v[1] then some { lo := field v[8] 16 16, hi := field v[8] 0 16 } else none
    proto := if protoPresent v[1] then some (field v[1] 0 8) else none
    verdict := verdictOf v[9] }

/-! ### Domain records (Table 11-7) -/

/-- Base and size lie in the bounds of R25. -/
def Segment.inBounds (g : Segment) : Bool := g.base ≤ 1023 && g.size ≤ 1024 && g.base + g.size ≤ 1024

/-- A segment as a word. -/
def Segment.word (g : Segment) : Word := BitVec.ofNat 16 g.base ++ BitVec.ofNat 16 g.size

/-- The segment a word holds. -/
def segmentOf (w : Word) : Segment := { base := (field w 16 16).toNat, size := (field w 0 16).toNat }

/-- A domain record as the twenty-four words of SNAPSHOT: every field but CURSOR and RESTORING (R170, R185). -/
def DomainRecord.words (d : DomainRecord) : Vector Word 24 :=
  #v[d.state.code ++ 0#24,
     0#24 ++ d.sticky,
     d.desc.lookupLevel ++ d.desc.learnLevel ++ d.desc.editLevel ++ 0#14 ++
       (bit d.desc.learning ++ bit d.desc.autoRetire ++ bit d.desc.readClears ++ bit d.desc.countStop) ++ d.desc.mask,
     d.desc.active.word,
     d.desc.standby.word,
     d.desc.period1 ++ d.desc.period2,
     d.desc.period3 ++ d.desc.period4,
     d.desc.provPeriod ++ 0#16,
     d.desc.defaultVerdict.word,
     d.desc.provVerdict.word,
     d.counters.lookups, d.counters.hits, d.counters.heldHits, d.counters.misses,
     d.counters.denied, d.counters.learned, d.counters.aged, d.counters.touches,
     0, 0, 0, 0, 0, 0]

/-- The positions that Table 11-7 lists in each word of a domain record, as `bindingPositions` does. -/
def domainPositions : Vector Word 24 :=
  #v[0xFF000000#32, 0x000000FF#32, 0xFC000FFF#32, .allOnes 32, .allOnes 32, .allOnes 32, .allOnes 32, 0xFFFF0000#32,
     .allOnes 32, .allOnes 32, .allOnes 32, .allOnes 32, .allOnes 32, .allOnes 32, .allOnes 32, .allOnes 32,
     .allOnes 32, .allOnes 32, 0, 0, 0, 0, 0, 0]

/-- Word `i` of a staging domain record as a read shows it: the listed positions (section 11.6). -/
def shownDomainWord (v : Vector Word 24) (i : Nat) : Word := wordAt v i &&& wordAt domainPositions i

/-- The check of R37 on a copied descriptor (words 2 to 9). -/
def descriptorValid (v : Vector Word 24) : Bool :=
  (segmentOf v[3]).inBounds && (segmentOf v[4]).inBounds && verdictValid v[8] && verdictValid v[9]

/-- The descriptor that a valid copy holds (R36). -/
def descriptorOf (v : Vector Word 24) : Descriptor :=
  { active := segmentOf v[3], standby := segmentOf v[4]
    lookupLevel := field v[2] 30 2, learnLevel := field v[2] 28 2, editLevel := field v[2] 26 2
    learning := v[2].getLsbD 11, autoRetire := v[2].getLsbD 10, readClears := v[2].getLsbD 9, countStop := v[2].getLsbD 8
    period1 := field v[5] 16 16, period2 := field v[5] 0 16
    period3 := field v[6] 16 16, period4 := field v[6] 0 16
    provPeriod := field v[7] 16 16
    defaultVerdict := verdictOf v[8], provVerdict := verdictOf v[9]
    mask := field v[2] 0 8 }

/-- The eight counters of words 10 to 17. -/
def countersOf (v : Vector Word 24) : Counters :=
  { lookups := v[10], hits := v[11], heldHits := v[12], misses := v[13]
    denied := v[14], learned := v[15], aged := v[16], touches := v[17] }

/-- The BAD_RECORD check of RESTORE: R37, and a STATE code that names a state (R173). -/
def domainValid (v : Vector Word 24) : Bool :=
  descriptorValid v && (domainStateOf (field v[0] 24 8)).isSome

/-- The record that a completed RESTORE leaves: the copy, with CURSOR absent and RESTORING no (R175). -/
def restoredRecordOf (v : Vector Word 24) : DomainRecord :=
  { state := (domainStateOf (field v[0] 24 8)).getD .off
    desc := descriptorOf v, sticky := field v[1] 0 8, counters := countersOf v, cursor := none, restoring := false }

/-! ### Requests and responses (Tables 11-9, 11-10) -/

/-- A request is MALFORMED when this fails: its KIND; and where its KIND uses them, its ROLE, the FAMILY of a present NET, its
LENGTH (R46). -/
def requestValid (v : RequestWords) : Bool :=
  let kind := (field v[0] 30 2).toNat
  let keyValid := (field v[0] 12 2).toNat ≤ 1 && (!v[0].getLsbD 16 || (field v[0] 10 2).toNat ≤ 1)
  let lengthValid := decide (1 ≤ (field v[3] 0 16).toNat) && decide ((field v[3] 0 16).toNat ≤ 16383)
  if kind = 0 then keyValid && lengthValid else if kind = 1 then keyValid else decide (kind = 2)

/-- The key of a LOOKUP or PROBE (R45, Table 11-9); absent parts keep none of their values (R47). -/
def keyOf (v : RequestWords) : Key :=
  { role := roleOf (field v[0] 12 2)
    addr := addrOf v[2] v[3]
    net := if v[0].getLsbD 16 then some (netAddressOf (field v[0] 10 2) v[4] v[5] v[6] v[7]) else none
    port := if v[0].getLsbD 15 then some (field v[1] 16 16) else none
    proto := if v[0].getLsbD 14 then some (field v[1] 8 8) else none }

/-- The TAG of any request, MALFORMED ones included (R68, R187). -/
def tagOf (v : RequestWords) : BitVec 6 := field v[0] 24 6

/-- The request that valid words hold, with the fields its KIND uses (R47, R62). -/
def requestOf (v : RequestWords) : Request :=
  { tag := tagOf v, domain := field v[0] 20 4, rpl := field v[0] 18 2
    question :=
      if (field v[0] 30 2).toNat = 0 then .lookup (v[0].getLsbD 17) (keyOf v) (field v[3] 0 16)
      else if (field v[0] 30 2).toNat = 1 then .probe (keyOf v)
      else .touch (field v[0] 0 10) (field v[1] 0 8) }

/-- The words of a key, for a KIND code: words 0 and 1 from the key, with the other fields of those words given. -/
def Key.requestWords (k : Key) (r : Request) (kind : BitVec 2) (learn : Bool) (length : BitVec 16) : RequestWords :=
  let family : BitVec 2 := match k.net with | some (.v6 _) => 1 | _ => 0
  let addr : BitVec 128 := match k.net with | some a => a.bits | none => 0
  #v[kind ++ r.tag ++ r.domain ++ r.rpl ++
       (bit learn ++ bit k.net.isSome ++ bit k.port.isSome ++ bit k.proto.isSome) ++
       (k.role.code).extractLsb' 0 2 ++ family ++ 0#10,
     k.port.getD 0 ++ k.proto.getD 0 ++ 0#8,
     k.addr.a0 ++ k.addr.a1 ++ k.addr.a2 ++ k.addr.a3,
     k.addr.a4 ++ k.addr.a5 ++ length,
     addr.extractLsb' 96 32, addr.extractLsb' 64 32, addr.extractLsb' 32 32, addr.extractLsb' 0 32]

/-- A request as its eight words, the fields its KIND does not use zero (Table 11-9). -/
def Request.words (r : Request) : RequestWords :=
  match r.question with
  | .lookup learn key length => key.requestWords r 0 learn length
  | .probe key => key.requestWords r 1 false 0
  | .touch slot gen =>
    #v[2#2 ++ r.tag ++ r.domain ++ r.rpl ++ 0#8 ++ slot, 0#24 ++ gen, 0, 0, 0, 0, 0, 0]

/-- A response as its three words (Table 11-10); a field it does not carry is zero (R187). -/
def Response.words (r : Response) : Vector Word 3 :=
  #v[r.tag ++ r.outcome.code ++ conditionCode r.condition ++ bit r.handle.isSome ++ bit r.verdict.isSome ++ 0#7 ++
       BitVec.ofNat 10 ((r.handle.map Handle.slot).getD 0),
     0#24 ++ (r.handle.map Handle.gen).getD 0,
     (r.verdict.map Verdict.word).getD 0]

/-! ### RESULT (Table 11-8) -/

/-- RESULT as its four words (R186). -/
def Result.words (r : Result) : Vector Word 4 :=
  #v[r.code.code ++ r.gen ++ BitVec.ofNat 16 r.slot,
     match r.cursor with
       | some c => 1#1 ++ c.segment.code ++ 0#19 ++ BitVec.ofNat 11 c.offset
       | none => 0,
     0#24 ++ BitVec.ofNat 8 r.count,
     0]

/-! ### Pass criteria (Table 11-5) -/

/-- A criterion with codes ANY, YES and NO (R165). -/
inductive YesNoAny where
  | any | yes | no
  deriving DecidableEq, Repr

/-- The criterion's test of a flag. -/
def YesNoAny.fits : YesNoAny → Bool → Bool
  | .any, _ => true
  | .yes, b => b
  | .no, b => !b

/-- ANY, YES or NO from its code; the code 3 fails `criteriaValid`. -/
def yesNoAnyOf (c : BitVec 2) : YesNoAny := if c = 1 then .yes else if c = 2 then .no else .any

/-- The criteria of a SCAN or SWEEP (R165). -/
structure Criteria where
  restart       : Bool
  segment       : SegmentName
  includePinned : Bool
  provisional   : Bool
  live          : Bool
  held          : Bool
  minLevel      : Level
  learned       : YesNoAny
  readPending   : YesNoAny
  deriving DecidableEq, Repr

/-- The criteria are BAD_RECORD when the LEARNED code or the READ_PENDING code is 3 (R165). -/
def criteriaValid (flags : Word) : Bool := field flags 8 2 != 3 && field flags 10 2 != 3

/-- The criteria in the flags operand (Table 11-5). -/
def criteriaOf (flags : Word) : Criteria :=
  { restart := flags.getLsbD 0
    segment := if flags.getLsbD 1 then .standby else .active
    includePinned := flags.getLsbD 2
    provisional := flags.getLsbD 3, live := flags.getLsbD 4, held := flags.getLsbD 5
    minLevel := levelOf (field flags 6 2)
    learned := yesNoAnyOf (field flags 8 2), readPending := yesNoAnyOf (field flags 10 2) }

end Sys2Proof.Machine
end

