-- ==== Sys2Proof/Machine/Ops.lean ====
section
/-! DEFINITION. The shared operations: access to slots and domain records, segments, the Table Arbiter, the attention summary, the full
reset, and the completion of a command. -/

namespace Sys2Proof.Machine

/-- The outcome of one event. -/
abbrev Out := Host.Outcome State Fault Refusal

/-! ### The frame in progress (R176, R188) -/

/-- The completion of a byte that the frame in progress does not bring: where every further byte is ignored it changes nothing (R176, R188);
otherwise there is no such event. -/
def strayByte (s : State) : Out :=
  match s.frame with
  | .ignoring => .next s
  | .idle | .selected | .opened _ | .regRead _ _ | .windowRead _ _ _ | .windowWrite _ _ | .summary _ _ => .fault .noSuchFrame

/-- The byte of a frame of a kind at which its row acts, every byte before it without effect (R176). -/
def State.inFrame (s : State) (k : FrameKind) (act : Out) : Out := if s.frame = .opened k then act else strayByte s

/-! ### Slots and domain records -/

/-- The record of a slot. Every run stays within 0..1023; past it this reads a FREE record (log entry 15). -/
def State.slotAt (s : State) (i : Nat) : Slot := (s.slots[i]?).getD (.free 0)

/-- A record written into a slot; past 1023 nothing is written (log entry 15). -/
def State.setSlot (s : State) (i : Nat) (r : Slot) : State := { s with slots := s.slots.setIfInBounds i r }

/-- The record of a domain (R23). -/
def State.domainAt (s : State) (n : Nat) : DomainRecord := (s.domains[n]?).getD .reset

/-- A domain record changed: one Domain Table event (R24). -/
def State.setDomain (s : State) (n : Nat) (d : DomainRecord) : State := { s with domains := s.domains.setIfInBounds n d }

/-- Every field but GEN takes the FREE record's value; GEN is kept (R10). -/
def Slot.retire (r : Slot) : Slot := .free r.gen

/-- The part is in INIT (R22, R67). -/
def State.inInit (s : State) : Bool := match s.engine with | .init => true | _ => false

/-- The table clearing runs: INIT, with RESET_N released (R22, R67). -/
def State.clearing (s : State) : Bool := s.inInit && !s.resetHeld

/-! ### Segments (R25, R26) -/

/-- Slot `i` lies in the segment (R25). -/
def Segment.has (g : Segment) (i : Nat) : Bool := decide (g.base ≤ i) && decide (i < g.base + g.size)

/-- Two segments share no slot; an empty one shares none with any (R26). -/
def Segment.disjoint (g h : Segment) : Bool :=
  decide (g.size = 0) || decide (h.size = 0) || decide (g.base + g.size ≤ h.base) || decide (h.base + h.size ≤ g.base)

/-- The slots of a segment in index order. -/
def Segment.slots (g : Segment) : List Nat := (List.range g.size).map (g.base + ·)

/-- The segment of a name. -/
def Descriptor.segment (d : Descriptor) : SegmentName → Segment
  | .active => d.active
  | .standby => d.standby

/-- Slot `i` lies in the active or the standby segment. -/
def Descriptor.owns (d : Descriptor) (i : Nat) : Bool := d.active.has i || d.standby.has i

/-- The segments of two descriptors are disjoint, each from each. -/
def Descriptor.apart (d e : Descriptor) : Bool :=
  d.active.disjoint e.active && d.active.disjoint e.standby && d.standby.disjoint e.active && d.standby.disjoint e.standby

/-- OVERLAP: the copy's segments share a slot with each other, or with a segment of another domain (R38). -/
def State.overlaps (s : State) (n : Nat) (d : Descriptor) : Bool :=
  !d.active.disjoint d.standby ||
    (List.range Config.domainCount).any (fun m => m != n && !d.apart (s.domainAt m).desc)

/-- Slot `i` lies in a present segment and in neither new one: the slots that are examined for STRANDED (R39, R174). -/
def leaves (present new : Descriptor) (i : Nat) : Bool := present.owns i && !new.owns i

/-- The first slot at or above `start` that is to be examined (R39: in index order). -/
def nextLeaving (present new : Descriptor) (start : Nat) : Option Nat :=
  (List.range Config.slotCount).find? (fun i => decide (start ≤ i) && leaves present new i)

/-! ### The Table Arbiter (R15, R16) -/

/-- The claim of a requester waits. -/
def State.claims (s : State) : Requester → Bool
  | .search => s.searchClaim
  | .command => s.commandClaim
  | .ageing => s.ageingClaim

/-- Table 1-4: the order in which waiting claims are considered, by LAST_GRANTED. -/
def grantOrder : Requester → List Requester
  | .search => [.command, .ageing, .search]
  | .command => [.ageing, .search, .command]
  | .ageing => [.search, .command, .ageing]

/-- The requester the next grant goes to, if a claim waits (R16). -/
def State.nextGrant (s : State) : Option Requester := (grantOrder s.lastGranted).find? s.claims

/-- A grant: LAST_GRANTED becomes the requester, and its claim no longer waits (R16). -/
def State.grant (s : State) : Requester → State
  | .search => { s with lastGranted := .search, searchClaim := false }
  | .command => { s with lastGranted := .command, commandClaim := false }
  | .ageing => { s with lastGranted := .ageing, ageingClaim := false }

/-! ### Attention (R134 to R137) -/

/-- A domain is attending when it is not RESTORING and STICKY holds a member not in MASK (R134). -/
def DomainRecord.attending (d : DomainRecord) : Bool := !d.restoring && d.sticky &&& ~~~d.desc.mask != 0

/-- The attention summary S (R135). -/
def State.summary (s : State) : Bool :=
  !s.inInit && (s.domains.toList.any DomainRecord.attending || s.deviceSticky &&& ~~~s.deviceMask != 0)

/-- The enabled summary (R136). -/
def State.enabledSummary (s : State) : Bool := s.attnEnable && s.summary

/-- ATTN judged after an event that led from `before` to `s`: in PULSE mode a pulse starts, or the one in progress is extended, when
the enabled summary has gone from false to true (R137). In LEVEL mode the line follows the state (R136). -/
def State.judgeFrom (before s : State) : State :=
  if s.attnMode = .pulse ∧ s.enabledSummary = true ∧ before.enabledSummary = false then { s with pulse := true } else s

/-- ATTN is asserted (R136, R137). -/
def State.attnAsserted (s : State) : Bool :=
  match s.attnMode with
  | .level => s.enabledSummary
  | .pulse => s.pulse

/-- ATTN is driven high: with polarity LOW an asserted line is low, with HIGH it is high (R136). -/
def State.attnHigh (s : State) : Bool :=
  match s.attnPolarity with
  | .low => !s.attnAsserted
  | .high => s.attnAsserted

/-- The set of attending domains, one bit each (R134, Table 11-2). -/
def State.domainAttention (s : State) : BitVec 16 :=
  (BitVec.ofBoolListLE (s.domains.toList.map DomainRecord.attending)).setWidth 16

/-- A device condition raised (R132), with S judged again (R135). -/
def State.raiseDevice (s : State) (c : DeviceCondition) : State :=
  s.judgeFrom { s with deviceSticky := s.deviceSticky ||| c.bit }

/-! ### Full reset (R21, R44, R83, R111, R142, R144, R188) -/

/-- A full reset: every block takes its reset values and the part enters INIT. The lines keep their levels, a frame in progress is
ended and its later bytes are ignored (R188); what the part has already sent, and the queue of events, are outside it. -/
def State.fullReset (s : State) : State :=
  { State.reset with
    resetHeld := s.resetHeld
    linkReset := s.linkReset
    frame := match s.frame with | .idle => .idle | _ => .ignoring
    responses := s.responses
    sdoWords := s.sdoWords
    pending := s.pending }

/-! ### The Command Engine -/

/-- A completion: RESULT is written, the command is discarded and the engine is IDLE (R148, R149). -/
def State.complete (s : State) (r : Result) : State := { s with engine := .idle, result := r }

/-- The result of every code that reports no slot: SLOT 0, GEN 0, CURSOR absent, COUNT 0 (R149). -/
def Result.plain (c : ResultCode) : Result := { code := c, slot := 0, gen := 0, cursor := none, count := 0 }

/-- A result decided at a grant on one slot, with the GEN the slot holds at the end of the grant (R149). -/
def Result.onSlot (c : ResultCode) (i : Nat) (gen : Byte) : Result :=
  { code := c, slot := i, gen := gen, cursor := none, count := 0 }

/-- The age timer starts an interval of AGE_STEP × 10 ms; with AGE_STEP 0 it does not run (R98). -/
def intervalOf (ageStep : BitVec 8) : Option (BitVec 8) := if ageStep = 0 then none else some ageStep

/-! ### Privilege (R28, R30) -/

/-- The effective level of a request: the greater of LINK_LEVEL and RPL (R28). -/
def requestLevel (linkLevel rpl : BitVec 2) : BitVec 2 := if linkLevel ≤ rpl then rpl else linkLevel

/-- The effective level of a command: its RPL byte, 4..255 judged as 3 (R28). -/
def commandLevel (rpl : Byte) : BitVec 2 := if 3 ≤ rpl.toNat then 3 else rpl.setWidth 2

end Sys2Proof.Machine
end

