-- ==== Sys2Proof/Machine/Link.lean ====
section
/-! DEFINITION. The Link Interface: arrivals, and the take of the head request. -/

namespace Sys2Proof.Machine

/-- A response that carries its TAG and OUTCOME alone (Table 4-3). -/
def Response.bare (tag : BitVec 6) (o : LinkOutcome) : Response :=
  { tag := tag, outcome := o, condition := none, handle := none, verdict := none }

/-- A response sent (R65). -/
def State.respond (s : State) (r : Response) : State := { s with responses := s.responses ++ [r] }

/-- REQUEST_ARRIVAL: while LINK_RESET is asserted the request is not taken (R82); otherwise the first case of R66 that holds. -/
def execRequestArrival (words : RequestWords) (s : State) : Out :=
  if s.linkReset then .next s
  else if s.inInit then .next (s.respond (.bare (tagOf words) .notReady))
  else if !requestValid words then .next ((s.raiseDevice .linkError).respond (.bare (tagOf words) .malformed))
  else if Config.queueDepth ≤ s.queue.length then
    .next ((s.raiseDevice .queueFull).respond (.bare (tagOf words) .busy))
  else .next { s with queue := s.queue ++ [requestOf words] }

/-- The domain answers OFF: it is OFF, or RESTORING (R17, R33). -/
def DomainRecord.outOfService (d : DomainRecord) : Bool := decide (d.state = .off) || d.restoring

/-- TAKE_HEAD: the EMPTY Search Engine takes the head request. For a domain OFF or RESTORING that take is the search event, without a
claim: the answer is OFF and the request leaves. Otherwise the engine is HOLDING and its claim waits (R71). -/
def execTakeHead (s : State) : Out :=
  if s.holding then .fault .noHeadToTake
  else match s.queue with
    | [] => .fault .noHeadToTake
    | r :: rest =>
      if (s.domainAt r.domain.toNat).outOfService then
        .next ({ s with queue := rest }.respond (.bare r.tag .off))
      else .next { s with holding := true, searchClaim := true }

end Sys2Proof.Machine
end

