-- ==== Sys2Proof/Machine/Ageing.lean ====
section
/-! DEFINITION. The Ageing Engine: the age timer, walks and walk steps (06). -/

namespace Sys2Proof.Machine

/-- AGE_TIMER_EXPIRY: a pending tick more, or the tick lost with AGE_OVERRUN when three wait; the next interval starts (R98, R99). -/
def execAgeTimerExpiry (s : State) : Out :=
  match s.ageInterval with
  | none => .fault .timerStopped
  | some _ =>
    let next := { s with ageInterval := intervalOf s.ageStep }
    if s.pendingTicks < Config.maxPendingTicks then .next { next with pendingTicks := s.pendingTicks + 1 }
    else .next (next.raiseDevice .ageOverrun)

/-- R100's three conditions for the start of a walk. -/
def State.walkDue (s : State) : Bool := s.walk.isNone && decide (0 < s.pendingTicks) && !s.inInit

/-- WALK_START: the walk takes the pending ticks as its k and claims the step on slot 0 (R100). -/
def execWalkStart (s : State) : Out :=
  if s.walkDue then
    .next { s with walk := some { k := s.pendingTicks, next := 0 }, pendingTicks := 0, ageingClaim := true }
  else .fault .walkNotDue

/-! ### The walk step (section 6.4) -/

/-- The next threshold of the chain: the one before it plus a period, unless the chain has stopped or the period is 0 (R104). -/
def chain (before : Option Nat) (period : BitVec 16) : Option Nat :=
  match before with
  | none => none
  | some t => if period = 0 then none else some (t + period.toNat)

/-- T1, where ACTIVE is left (R104). -/
def Descriptor.t1 (d : Descriptor) : Option Nat := chain (some 0) d.period1
/-- T2, where REST1 is left (R104). -/
def Descriptor.t2 (d : Descriptor) : Option Nat := chain d.t1 d.period2
/-- T3, where REST2 is left (R104). -/
def Descriptor.t3 (d : Descriptor) : Option Nat := chain d.t2 d.period3
/-- T4, where a binding at REST3 is retired under AUTO_RETIRE (R104). -/
def Descriptor.t4 (d : Descriptor) : Option Nat := chain d.t3 d.period4

/-- A threshold exists and an idle count has reached it. -/
def reached (t : Option Nat) (idle : Nat) : Bool :=
  match t with
  | none => false
  | some t => decide (t ≤ idle)

/-- The deepest level whose threshold exists and is reached (R105). -/
def Descriptor.reachedLevel (d : Descriptor) (idle : Nat) : Level :=
  if reached d.t3 idle then .rest3 else if reached d.t2 idle then .rest2 else if reached d.t1 idle then .rest1 else .active

/-- The depth of a level in the order ACTIVE < REST1 < REST2 < REST3. -/
def Level.depth : Level → Nat
  | .active => 0 | .rest1 => 1 | .rest2 => 2 | .rest3 => 3

/-- The deeper of two levels. -/
def Level.deeper (a b : Level) : Level := if a.depth < b.depth then b else a

/-- IDLE raised by k, saturating at 65535 (R103). -/
def raisedIdle (idle : BitVec 16) (k : Nat) : Nat := min (idle.toNat + k) 65535

/-- A step that acts on a binding: its record after the step, or none when it is retired by ageing (R103, R105). -/
def ageBinding (d : Descriptor) (k : Nat) (r : Slot) : Option Slot :=
  let idle := raisedIdle r.idle k
  let raised := { r with idle := BitVec.ofNat 16 idle }
  match r.state with
  | .free => some r
  | .provisional => if d.provPeriod ≠ 0 ∧ d.provPeriod.toNat ≤ idle then none else some raised
  | .live | .held =>
    let level := r.level.deeper (d.reachedLevel idle)
    if level = .rest3 ∧ reached d.t4 idle ∧ d.autoRetire then none else some { raised with level := level }

/-- The five conditions under which a step acts on slot `i` (R102). -/
def State.stepActs (s : State) (i : Nat) : Bool :=
  let r := s.slotAt i
  let d := s.domainAt r.domain.toNat
  decide (r.state ≠ .free) && decide (d.state = .on) && !d.restoring && d.desc.active.has i && !r.pinned

/-- The step's effect on slot `i` and its domain (R102 to R106). -/
def State.stepSlot (s : State) (k i : Nat) : State :=
  if s.stepActs i then
    let r := s.slotAt i
    let d := s.domainAt r.domain.toNat
    match ageBinding d.desc k r with
    | some r' => s.setSlot i r'
    | none => (s.setSlot i r.retire).setDomain r.domain.toNat ((d.count .aged).raise .aged)
  else s

/-- WALK_STEP: the grant to the Ageing Engine for the next slot of its walk; then it claims the slot after, or after slot 1023 the walk
ends (R101, R102). -/
def execWalkStep (s : State) : Out :=
  if s.nextGrant = some .ageing then
    match s.walk with
    | none => .fault .grantNotDue
    | some w =>
      let stepped := (s.grant .ageing).stepSlot w.k w.next
      let next :=
        if w.next + 1 < Config.slotCount then { stepped with walk := some { w with next := w.next + 1 }, ageingClaim := true }
        else { stepped with walk := none }
      .next (s.judgeFrom next)
  else .fault .grantNotDue

end Sys2Proof.Machine
end

