-- ==== Sys2Proof/Decode.lean ====
section
/-! DEFINITION. The codes of Tables 11-1 and 11-4, the events that the bytes of one SPI frame make (R176 to R182), the bytes of a
frame from its fields, and `decodeTableWord`. -/

namespace Sys2Proof

/-- Table 11-1: the frame kind that a frame code names. -/
def frameKindOf (code : Byte) : Option FrameKind :=
  if code = 0x01#8 then some .regRead
  else if code = 0x02#8 then some .regWrite
  else if code = 0x03#8 then some .windowRead
  else if code = 0x04#8 then some .windowWrite
  else if code = 0x05#8 then some .command
  else if code = 0x06#8 then some .summary
  else none

/-- Table 11-1, the other way. -/
def FrameKind.code : FrameKind → Byte
  | .regRead => 0x01#8
  | .regWrite => 0x02#8
  | .windowRead => 0x03#8
  | .windowWrite => 0x04#8
  | .command => 0x05#8
  | .summary => 0x06#8

/-- Table 11-4: a command's opcode. -/
def Command.opcode : Command → Byte
  | .writeSlot => 0x10#8
  | .setVerdict => 0x11#8
  | .hold => 0x12#8
  | .release => 0x13#8
  | .confirm => 0x14#8
  | .pin => 0x15#8
  | .unpin => 0x16#8
  | .retire => 0x17#8
  | .readSlot => 0x18#8
  | .scan => 0x20#8
  | .sweep => 0x21#8
  | .setDescriptor => 0x30#8
  | .exchange => 0x31#8
  | .setState => 0x32#8
  | .snapshot => 0x33#8
  | .restore => 0x34#8
  | .counters => 0x35#8
  | .clearConditions => 0x36#8
  | .reset => 0x3F#8

/-- The commands, in the order of Table 11-4. -/
def Command.all : List Command :=
  [.writeSlot, .setVerdict, .hold, .release, .confirm, .pin, .unpin, .retire, .readSlot, .scan, .sweep,
   .setDescriptor, .exchange, .setState, .snapshot, .restore, .counters, .clearConditions, .reset]

/-- The command that an opcode names, if it names one (R184). -/
def commandOfOpcode (opcode : Byte) : Option Command :=
  Command.all.find? (fun c => c.opcode == opcode)

/-- The row of the table that the COMMAND frame of a named command is. -/
def Instr.ofCommand (o : Operands) : Command → Instr
  | .writeSlot => .writeSlot o
  | .setVerdict => .setVerdict o
  | .hold => .hold o
  | .release => .release o
  | .confirm => .confirm o
  | .pin => .pin o
  | .unpin => .unpin o
  | .retire => .retire o
  | .readSlot => .readSlot o
  | .scan => .scan o
  | .sweep => .sweep o
  | .setDescriptor => .setDescriptor o
  | .exchange => .exchange o
  | .setState => .setState o
  | .snapshot => .snapshot o
  | .restore => .restore o
  | .counters => .counters o
  | .clearConditions => .clearConditions o
  | .reset => .reset o

/-- The row that a COMMAND frame is, by its opcode (R184). -/
def commandEvent (opcode : Byte) (o : Operands) : Instr :=
  match commandOfOpcode opcode with
  | some c => .ofCommand o c
  | none => .unknownCommand opcode o

/-- The row that a completed REG_WRITE frame is, by its address (R178, Table 11-2). -/
def regWriteEvent (address : Byte) (data : Word) : Instr :=
  if address = 0x02#8 then .controlWrite data
  else if address = 0x03#8 then .ageStepWrite data
  else if address = 0x04#8 then .deviceConditionsWrite data
  else if address = 0x05#8 then .deviceMaskWrite data
  else .regWrite address data

/-- Four bytes as one word, most significant byte first (00, "Byte and octet order"). -/
def wordOfBytes (b3 b2 b1 b0 : Byte) : Word := b3 ++ b2 ++ b1 ++ b0

/-- The groups of four bytes of a WINDOW_WRITE's data; a group cut short is discarded (R179). -/
def wordsOfBytes : List Byte → List Word
  | b3 :: b2 :: b1 :: b0 :: rest => wordOfBytes b3 b2 b1 b0 :: wordsOfBytes rest
  | _ => []

/-- The event of a COMMAND frame: its fourteen bytes after the frame code, in the order of R181; none when CS_N ends it
before the last of them. Bytes after the fourteenth are ignored. -/
def commandFrameEvents : List Byte → List Instr
  | opcode :: rpl :: s1 :: s0 :: gen :: domain :: f3 :: f2 :: f1 :: f0 :: v3 :: v2 :: v1 :: v0 :: _ =>
    [commandEvent opcode
      { rpl := rpl, slot := s1 ++ s0, gen := gen, domain := domain
        flags := wordOfBytes f3 f2 f1 f0, value := wordOfBytes v3 v2 v1 v0 }]
  | _ => []

/-- The event of the frame code: SUMMARY's own row acts at it (R182); every other code is judged by the row FRAME_ERROR (R176). -/
def frameCodeEvent (code : Byte) : Instr :=
  match frameKindOf code with
  | some .summary => .summary .code
  | _ => .frameError (.code code)

/-- The events of the bytes after the frame code, for a frame of a given kind. -/
def frameBodyEvents : FrameKind → List Byte → List Instr
  | .regRead, a :: out =>
    .statusRead (.address a) :: (if 4 ≤ out.length then [.statusRead .sent] else [])
  | .regRead, [] => []
  | .regWrite, a :: b3 :: b2 :: b1 :: b0 :: _ => [regWriteEvent a (wordOfBytes b3 b2 b1 b0)]
  | .regWrite, _ => []
  | .windowRead, w :: start :: out =>
    .windowRead (.header w start) :: List.replicate (out.length / 4) (.windowRead .word)
  | .windowRead, _ => []
  | .windowWrite, w :: start :: data =>
    .windowWrite (.header w start) :: (wordsOfBytes data).map (fun x => .windowWrite (.word x))
  | .windowWrite, _ => []
  | .command, rest => commandFrameEvents rest
  | .summary, out => List.replicate (out.length / 4) (.summary .word)

/-- The events that the bytes of one frame make, in order (R176). -/
def frameByteEvents : List Byte → List Instr
  | [] => []
  | code :: rest => frameCodeEvent code :: match frameKindOf code with
    | some k => frameBodyEvents k rest
    | none => []

/-- The events that one frame makes, given every byte completed between the fall and the rise of CS_N, in order (R176 to R182). -/
def frameEvents (bytes : List Byte) : List Instr := .frameError .fall :: (frameByteEvents bytes ++ [.frameEnd])

/-- The bytes of a word, most significant first. -/
def bytesOfWord (w : Word) : List Byte :=
  [w.extractLsb' 24 8, w.extractLsb' 16 8, w.extractLsb' 8 8, w.extractLsb' 0 8]

/-- The bytes of a COMMAND frame, its frame code included (R181). -/
def commandFrameBytes (opcode : Byte) (o : Operands) : List Byte :=
  FrameKind.command.code :: opcode :: o.rpl :: o.slot.extractLsb' 8 8 :: o.slot.extractLsb' 0 8 :: o.gen :: o.domain ::
    (bytesOfWord o.flags ++ bytesOfWord o.value)

/-- The bytes of a REG_WRITE frame, its frame code included (R177). -/
def regWriteFrameBytes (address : Byte) (data : Word) : List Byte :=
  FrameKind.regWrite.code :: address :: bytesOfWord data

/-- spec/opcode_table.json gives bits to none of its rows (98_reader.md: "n_rows_with_fields": 0), so no word spells a row. -/
def decodeTableWord (_nbits _w : Nat) : Option Instr := none

end Sys2Proof
end

