-- ==== Sys2Proof/Machine/Take.lean ====
section
/-! DEFINITION. COMMAND frames: their refusal, their take with the checks made at it, and the way each command goes on (09, 02, 10). -/

namespace Sys2Proof.Machine

/-! ### What a command uses (Table 9-3) -/

/-- The command uses a slot operand, which must not be above 1023 (R151). -/
def usesSlot : Command → Bool
  | .writeSlot | .setVerdict | .hold | .release | .confirm | .pin | .unpin | .retire | .readSlot => true
  | .scan | .sweep | .setDescriptor | .exchange | .setState | .snapshot | .restore | .counters | .clearConditions | .reset => false

/-- The level the command needs, in a domain (R30, Table 9-3). -/
def levelNeeded (d : DomainRecord) : Command → BitVec 2
  | .readSlot | .scan => d.desc.lookupLevel
  | .writeSlot | .setVerdict | .hold | .release | .confirm | .pin | .unpin | .retire | .sweep => d.desc.editLevel
  | .setDescriptor | .exchange | .setState | .snapshot | .restore | .counters | .clearConditions | .reset => 0

/-- Flag 0 of a command: REPLACE, TAKE_VERDICT, REINIT or CLEAR (Table 11-4). -/
def flag0 (flags : Word) : Bool := flags.getLsbD 0

/-- Flag 1 of COUNTERS: PRESET (Table 11-4). -/
def flag1 (flags : Word) : Bool := flags.getLsbD 1

/-- The copy of a staging window that the take makes (R145). -/
def State.stagedFor (s : State) (o : Operands) : Command → Staged
  | .writeSlot | .setVerdict => .binding s.stagingBinding
  | .confirm => if flag0 o.flags then .binding s.stagingBinding else .absent
  | .setDescriptor | .restore => .domain s.stagingDomain
  | .hold | .release | .pin | .unpin | .retire | .readSlot | .scan | .sweep | .exchange | .setState | .snapshot | .counters
  | .clearConditions | .reset => .absent

/-- The three checks made at every take, in order; RESET uses no domain operand (R151). `none` when all pass. -/
def State.takeCheck (s : State) (o : Operands) : Option Command → Option ResultCode
  | none => some .unknownCommand
  | some .reset => if commandLevel o.rpl = 0 then none else some .denied
  | some c =>
    if usesSlot c ∧ 1023 < o.slot.toNat then some .badSlot
    else if 15 < o.domain.toNat then some .denied
    else if levelNeeded (s.domainAt o.domain.toNat) c < commandLevel o.rpl then some .denied
    else none

/-! ### How each command goes on after the take checks -/

/-- The staging copy read as a domain record's words. -/
def Staged.domainWords : Staged → Vector Word 24
  | .domain w => w
  | .absent | .binding _ => Vector.replicate _ 0

/-- The staging copy read as a binding record's words. -/
def Staged.bindingWords : Staged → Vector Word 16
  | .binding w => w
  | .absent | .domain _ => Vector.replicate _ 0

/-- A pass: BAD_RECORD, STALE_CURSOR, then its starting offset; an issue that starts at the end makes no visit (R166). -/
def passStart (d : DomainRecord) (flags : Word) : Progress :=
  let c := criteriaOf flags
  let start (offset : Nat) : Progress :=
    if (d.desc.segment c.segment).size ≤ offset then .complete else .visit offset 0 0
  if !criteriaValid flags then .refused .badRecord
  else if c.restart then start 0
  else match d.cursor with
    | none => .refused .staleCursor
    | some p => if p.segment = c.segment then start p.offset else .refused .staleCursor

/-- An examination for STRANDED from slot 0: its first slot, or nothing to examine (R39, R174). -/
def examineFrom (present new : Descriptor) (start : Nat) : Progress :=
  match nextLeaving present new start with
  | some i => .examine i
  | none => .complete

/-- SET_DESCRIPTOR: BAD_RECORD and OVERLAP at the take, then the examination (R36 to R39). -/
def State.descriptorStart (s : State) (n : Nat) (v : Vector Word 24) : Progress :=
  if !descriptorValid v then .refused .badRecord
  else if s.overlaps n (descriptorOf v) then .refused .overlap
  else examineFrom (s.domainAt n).desc (descriptorOf v) 0

/-- RESTORE: BAD_RECORD and OVERLAP at the take, then the examination (R173, R174). -/
def State.restoreStart (s : State) (n : Nat) (v : Vector Word 24) : Progress :=
  if !domainValid v then .refused .badRecord
  else if s.overlaps n (descriptorOf v) then .refused .overlap
  else examineFrom (s.domainAt n).desc (descriptorOf v) 0

/-- The progress of a command whose take checks have passed (R148). -/
def State.startOf (s : State) (o : Operands) (staged : Staged) : Command → Progress
  | .writeSlot | .setVerdict | .hold | .release | .confirm | .pin | .unpin | .retire | .readSlot => .grant
  | .scan | .sweep => passStart (s.domainAt o.domain.toNat) o.flags
  | .setDescriptor => s.descriptorStart o.domain.toNat staged.domainWords
  | .restore => s.restoreStart o.domain.toNat staged.domainWords
  | .setState => if (domainStateOf (field o.value 0 8)).isSome then .complete else .refused .badRecord
  | .exchange | .snapshot | .counters | .clearConditions | .reset => .complete

/-- The command waits for a table grant. -/
def Progress.claims : Progress → Bool
  | .grant | .examine _ | .visit _ _ _ => true
  | .refused _ | .complete => false

/-- The progress is that of a refusal at the take. -/
def Progress.isRefused : Progress → Bool
  | .refused _ => true
  | .grant | .examine _ | .visit _ _ _ | .complete => false

/-- The command in flight that a take writes (R145, Table 9-2). -/
def State.inFlight (s : State) (c : Option Command) (o : Operands) : InFlight :=
  let staged := match c with | some k => s.stagedFor o k | none => .absent
  { command := c, level := commandLevel o.rpl, domain := o.domain, slot := o.slot, gen := o.gen
    flags := o.flags, value := o.value, staged := staged
    progress := match s.takeCheck o c, c with
      | some code, _ => .refused code
      | none, some k => s.startOf o staged k
      | none, none => .complete }

/-- The take of a frame other than a permitted RESET: BUSY with the command in flight, REFUSED cleared, the first claim placed, and for a
RESTORE whose take checks pass RESTORING set with S judged again (R145, R173, R141). -/
def State.take (s : State) (c : Option Command) (o : Operands) : State :=
  let f := s.inFlight c o
  let taken := { s with engine := .busy f, refused := false, commandClaim := f.progress.claims, frame := .ignoring }
  if c = some .restore ∧ f.progress.isRefused = false then
    s.judgeFrom (taken.setDomain o.domain.toNat { s.domainAt o.domain.toNat with restoring := true })
  else taken

/-- A COMMAND frame delivered to the Command Engine: refused in INIT and BUSY (R146), where a frame refused while RESET_N is held leaves
REFUSED clear (R188); taken in IDLE (R145), where the take of a RESET with effective level 0 is the full reset (R161). Bytes after the last
operand byte are ignored (R176, R181). -/
def State.deliver (s : State) (c : Option Command) (o : Operands) : State :=
  match s.engine with
  | .init => { s with refused := s.refused || !s.resetHeld, frame := .ignoring }
  | .busy _ => { s with refused := true, frame := .ignoring }
  | .idle => if c = some .reset ∧ commandLevel o.rpl = 0 then s.fullReset else s.take c o

/-- The last operand byte of a COMMAND frame: the port delivers the frame (R181). -/
def commandFrame (c : Option Command) (o : Operands) (s : State) : Out := s.inFrame .command (.next (s.deliver c o))

/-! ### The rows -/

/-- WRITE_SLOT (R153). -/
def execWriteSlot (o : Operands) (s : State) : Out := commandFrame (some .writeSlot) o s
/-- SET_VERDICT (R156). -/
def execSetVerdict (o : Operands) (s : State) : Out := commandFrame (some .setVerdict) o s
/-- HOLD (R157). -/
def execHold (o : Operands) (s : State) : Out := commandFrame (some .hold) o s
/-- RELEASE (R157). -/
def execRelease (o : Operands) (s : State) : Out := commandFrame (some .release) o s
/-- CONFIRM (R92). -/
def execConfirm (o : Operands) (s : State) : Out := commandFrame (some .confirm) o s
/-- PIN (R109). -/
def execPin (o : Operands) (s : State) : Out := commandFrame (some .pin) o s
/-- UNPIN (R109). -/
def execUnpin (o : Operands) (s : State) : Out := commandFrame (some .unpin) o s
/-- RETIRE (R159). -/
def execRetire (o : Operands) (s : State) : Out := commandFrame (some .retire) o s
/-- READ_SLOT (R116, R160). -/
def execReadSlot (o : Operands) (s : State) : Out := commandFrame (some .readSlot) o s
/-- SCAN (R166). -/
def execScan (o : Operands) (s : State) : Out := commandFrame (some .scan) o s
/-- SWEEP (R166). -/
def execSweep (o : Operands) (s : State) : Out := commandFrame (some .sweep) o s
/-- SET_DESCRIPTOR (R36). -/
def execSetDescriptor (o : Operands) (s : State) : Out := commandFrame (some .setDescriptor) o s
/-- EXCHANGE (R42): its take; the swap is its completion. -/
def execExchange (o : Operands) (s : State) : Out := commandFrame (some .exchange) o s
/-- SET_STATE (R34): its take; the change is its completion. -/
def execSetState (o : Operands) (s : State) : Out := commandFrame (some .setState) o s
/-- SNAPSHOT (R170): its take; the copy is its completion. -/
def execSnapshot (o : Operands) (s : State) : Out := commandFrame (some .snapshot) o s
/-- RESTORE (R173). -/
def execRestore (o : Operands) (s : State) : Out := commandFrame (some .restore) o s
/-- COUNTERS (R124): its take; the setting is its completion. -/
def execCounters (o : Operands) (s : State) : Out := commandFrame (some .counters) o s
/-- CLEAR_CONDITIONS (R139): its take; the clear is its completion. -/
def execClearConditions (o : Operands) (s : State) : Out := commandFrame (some .clearConditions) o s

/-- RESET (R161): its take with effective level 0 is the full reset. -/
def execReset (o : Operands) (s : State) : Out := commandFrame (some .reset) o s

/-- UNKNOWN_COMMAND: the frame is taken all the same (R151). An operand that does name a command is not a term of this row; it does what
that command's frame does (log entry 10). -/
def execUnknownCommand (opcode : Byte) (o : Operands) (s : State) : Out := commandFrame (commandOfOpcode opcode) o s

end Sys2Proof.Machine
end

