-- ==== Sys2Proof/Machine/SlotCommands.lean ====
section
/-! DEFINITION. The commands of one table grant: WRITE_SLOT, SET_VERDICT, HOLD, RELEASE, CONFIRM, PIN, UNPIN, RETIRE, READ_SLOT. -/

namespace Sys2Proof.Machine

/-- The command names a handle, so STALE is judged: all of them but WRITE_SLOT without REPLACE and READ_SLOT (R13, R152). -/
def namesHandle (c : Command) (flags : Word) : Bool :=
  match c with
  | .writeSlot => flag0 flags
  | .setVerdict | .hold | .release | .confirm | .pin | .unpin | .retire => true
  | .readSlot | .scan | .sweep | .setDescriptor | .exchange | .setState | .snapshot | .restore | .counters | .clearConditions
  | .reset => false

/-- WRONG_STATE, for the commands that have it (R92, R109, R157). -/
def wrongState (c : Command) (st : SlotState) : Bool :=
  match c with
  | .hold => decide (st ≠ .live)
  | .release => decide (st ≠ .held)
  | .confirm => decide (st ≠ .provisional)
  | .pin | .unpin => decide (st = .provisional)
  | .writeSlot | .setVerdict | .retire | .readSlot | .scan | .sweep | .setDescriptor | .exchange | .setState | .snapshot | .restore
  | .counters | .clearConditions | .reset => false

/-- BAD_RECORD on the parts of the staged copy that the command takes (R48, R49). -/
def badRecord (c : Command) (flags : Word) (v : Vector Word 16) : Bool :=
  match c with
  | .writeSlot => !bindingValid v
  | .setVerdict => !verdictValid v[9]
  | .confirm => flag0 flags && !verdictValid v[9]
  | .hold | .release | .pin | .unpin | .retire | .readSlot | .scan | .sweep | .setDescriptor | .exchange | .setState | .snapshot
  | .restore | .counters | .clearConditions | .reset => false

/-- OCCUPIED: WRITE_SLOT without REPLACE on a slot that is not FREE (R153). -/
def occupied (c : Command) (flags : Word) (st : SlotState) : Bool :=
  decide (c = .writeSlot) && !flag0 flags && decide (st ≠ .free)

/-- The checks made at the grant, in the order of R150; `none` when all pass (R152, R153). -/
def grantCheck (c : Command) (f : InFlight) (d : Descriptor) (r : Slot) : Option ResultCode :=
  if !d.owns f.slot.toNat then some .notInSegment
  else if namesHandle c f.flags && (decide (r.state = .free) || r.gen != f.gen) then some .stale
  else if wrongState c r.state then some .wrongState
  else if badRecord c f.flags f.staged.bindingWords then some .badRecord
  else if occupied c f.flags r.state then some .occupied
  else none

/-- The record WRITE_SLOT writes (R154). -/
def writtenRecord (former : Slot) (domain : Byte) (b : StagedBinding) : Slot :=
  { state := b.state, gen := former.gen + 1, domain := domain.setWidth 4
    addr := b.addr, addrMask := b.addrMask, role := b.role, net := b.net, ports := b.ports, proto := b.proto
    verdict := b.verdict, level := .active, idle := 0, pinned := b.pinned, learned := false, readPending := false
    frames := 0, octets := 0 }

/-- READ_SLOT's change of the slot after its copy (R117). -/
def readRecord (readClears : Bool) (r : Slot) : Slot :=
  { r with
    readPending := false
    frames := if readClears then 0 else r.frames
    octets := if readClears then 0 else r.octets }

/-- What a command whose checks pass makes of its slot (R93, R109, R117, R154, R156, R157, R159). -/
def editedRecord (c : Command) (f : InFlight) (d : Descriptor) (r : Slot) : Slot :=
  match c with
  | .writeSlot => writtenRecord r f.domain (bindingOf f.staged.bindingWords)
  | .setVerdict => { r with verdict := verdictOf f.staged.bindingWords[9] }
  | .hold => { r with state := .held }
  | .release => { r with state := .live }
  | .confirm =>
    { r with state := .live, verdict := if flag0 f.flags then verdictOf f.staged.bindingWords[9] else r.verdict }
  | .pin => { r with pinned := true }
  | .unpin => { r with pinned := false }
  | .retire => r.retire
  | .readSlot => readRecord d.readClears r
  | .scan | .sweep | .setDescriptor | .exchange | .setState | .snapshot | .restore | .counters | .clearConditions | .reset => r

/-- The grant event of a one-slot command, which is its completion (R152, R160). -/
def State.slotCommand (s : State) (c : Command) (f : InFlight) : State :=
  let i := f.slot.toNat
  let d := (s.domainAt f.domain.toNat).desc
  let r := s.slotAt i
  let granted := s.grant .command
  match grantCheck c f d r with
  | some code => granted.complete (.onSlot code i r.gen)
  | none =>
    let r' := editedRecord c f d r
    let done := (granted.setSlot i r').complete (.onSlot .done i r'.gen)
    if c = .readSlot then { done with bindingView := r.words } else done

/-- COMMAND_GRANT: the grant to the Command Engine for its one-slot command (R152). -/
def execCommandGrant (s : State) : Out :=
  if s.nextGrant = some .command then
    match s.engine with
    | .busy f =>
      match f.command, f.progress with
      | some c, .grant => if usesSlot c then .next (s.slotCommand c f) else .fault .grantNotDue
      | _, _ => .fault .grantNotDue
    | .init | .idle => .fault .grantNotDue
  else .fault .grantNotDue

end Sys2Proof.Machine
end

