-- ==== Sys2Proof/Machine/Passes.lean ====
section
/-! DEFINITION. The visits of SCAN and SWEEP, and the examinations of SET_DESCRIPTOR and RESTORE: commands of several grants. -/

namespace Sys2Proof.Machine

/-- A slot is selected when it is not FREE and fits all five criteria (R165). -/
def selected (c : Criteria) (r : Slot) : Bool :=
  (match r.state with
    | .free => false
    | .provisional => c.provisional
    | .live => c.live
    | .held => c.held) &&
  decide (c.minLevel.depth ≤ r.level.depth) && c.learned.fits r.learned && c.readPending.fits r.readPending &&
    (c.includePinned || !r.pinned)

/-- CURSOR and RESULT written together at the completion of a pass issue (R168). -/
def State.passDone (s : State) (n : Nat) (code : ResultCode) (h : Handle) (cursor : Option Cursor) (count : Nat) : State :=
  (s.setDomain n { s.domainAt n with cursor := cursor }).complete
    { code := code, slot := h.slot, gen := h.gen, cursor := cursor, count := count }

/-- SLOT 0, GEN 0. -/
def Handle.none : Handle := { slot := 0, gen := 0 }

/-- After a visit that found nothing to stop at: the issue ends at the segment's size, or after its 64th visit, or the next visit is
claimed (R167, R168). -/
def State.passOn (s : State) (sweep : Bool) (f : InFlight) (g : Segment) (seg : SegmentName) (offset visits retired : Nat) : State :=
  if g.size ≤ offset then s.passDone f.domain.toNat (if sweep then .done else .endOfPass) .none none retired
  else if Config.visitsPerIssue ≤ visits then
    s.passDone f.domain.toNat .partialPass .none (some { segment := seg, offset := offset }) retired
  else { s with engine := .busy { f with progress := .visit offset visits retired }, commandClaim := true }

/-- One visit, on the slot at an offset of the pass segment (R167). -/
def State.visitSlot (s : State) (sweep : Bool) (f : InFlight) (offset visits retired : Nat) : State :=
  let c := criteriaOf f.flags
  let g := (s.domainAt f.domain.toNat).desc.segment c.segment
  let i := g.base + offset
  let r := s.slotAt i
  let granted := s.grant .command
  if selected c r then
    if sweep then (granted.setSlot i r.retire).passOn true f g c.segment (offset + 1) (visits + 1) (retired + 1)
    else granted.passDone f.domain.toNat .found { slot := i, gen := r.gen } (some { segment := c.segment, offset := offset + 1 }) 0
  else granted.passOn sweep f g c.segment (offset + 1) (visits + 1) retired

/-- PASS_VISIT: the grant to the Command Engine for a visit of its pass (R167). -/
def execPassVisit (s : State) : Out :=
  if s.nextGrant = some .command then
    match s.engine with
    | .busy f =>
      match f.command, f.progress with
      | some .scan, .visit offset visits retired => .next (s.visitSlot false f offset visits retired)
      | some .sweep, .visit offset visits retired => .next (s.visitSlot true f offset visits retired)
      | _, _ => .fault .grantNotDue
    | .init | .idle => .fault .grantNotDue
  else .fault .grantNotDue

/-! ### Examinations (R39, R174) -/

/-- An examination grant that finds slot `i` FREE: the next slot is claimed, or the completion is due (R39, R174). -/
def State.examineNext (s : State) (f : InFlight) (i : Nat) : State :=
  let present := (s.domainAt f.domain.toNat).desc
  let p := examineFrom present (descriptorOf f.staged.domainWords) (i + 1)
  { s with engine := .busy { f with progress := p }, commandClaim := p.claims }

/-- DESCRIPTOR_EXAMINATION_GRANT: a FREE slot passes; the first one that is not ends the command with STRANDED (R39). -/
def execDescriptorExaminationGrant (s : State) : Out :=
  if s.nextGrant = some .command then
    match s.engine with
    | .busy f =>
      match f.command, f.progress with
      | some .setDescriptor, .examine i =>
        let r := s.slotAt i
        if r.state = .free then .next ((s.grant .command).examineNext f i)
        else .next ((s.grant .command).complete (.onSlot .stranded i r.gen))
      | _, _ => .fault .grantNotDue
    | .init | .idle => .fault .grantNotDue
  else .fault .grantNotDue

/-- RESTORE_EXAMINATION_GRANT: a FREE slot passes; the first one that is not ends the command with STRANDED, and RESTORING returns to no,
with S judged again (R174). -/
def execRestoreExaminationGrant (s : State) : Out :=
  if s.nextGrant = some .command then
    match s.engine with
    | .busy f =>
      match f.command, f.progress with
      | some .restore, .examine i =>
        let r := s.slotAt i
        let n := f.domain.toNat
        if r.state = .free then .next ((s.grant .command).examineNext f i)
        else
          .next (s.judgeFrom
            (((s.grant .command).setDomain n { s.domainAt n with restoring := false }).complete (.onSlot .stranded i r.gen)))
      | _, _ => .fault .grantNotDue
    | .init | .idle => .fault .grantNotDue
  else .fault .grantNotDue

end Sys2Proof.Machine
end

