-- ==== Sys2Proof/Machine/Completion.lean ====
section
/-! DEFINITION. Completions that are events of their own: refusals at the take, the commands of one Domain Table event, an examined
SET_DESCRIPTOR, a pass with no visit, and RESTORE (R148). -/

namespace Sys2Proof.Machine

/-- EXCHANGE: the two segments change places and CURSOR becomes absent (R42). -/
def DomainRecord.exchange (d : DomainRecord) : DomainRecord :=
  { d with desc := { d.desc with active := d.desc.standby, standby := d.desc.active }, cursor := none }

/-- COUNTERS: CLEAR sets all eight to 0, PRESET to the value, neither leaves them (R124). -/
def DomainRecord.setCounters (d : DomainRecord) (flags value : Word) : DomainRecord :=
  if flag0 flags then { d with counters := .all 0 }
  else if flag1 flags then { d with counters := .all value }
  else d

/-- CLEAR_CONDITIONS: the named members are removed (R139). -/
def DomainRecord.clearConditions (d : DomainRecord) (set : BitVec 8) : DomainRecord := { d with sticky := d.sticky &&& ~~~set }

/-- SNAPSHOT with REINIT: STATE OFF, MASK all eight, STICKY empty, the counters 0, CURSOR absent (R171). -/
def DomainRecord.reinit (d : DomainRecord) : DomainRecord :=
  { d with state := .off, desc := { d.desc with mask := 0xFF#8 }, sticky := 0, counters := .all 0, cursor := none }

/-- SET_DESCRIPTOR's load: the descriptor as one unit, CURSOR absent (R36). -/
def DomainRecord.load (d : DomainRecord) (new : Descriptor) : DomainRecord := { d with desc := new, cursor := none }

/-- DOMAIN_ON: the active segment would change while the domain is ON or FROZEN (R40). -/
def DomainRecord.refusesActive (d : DomainRecord) (new : Descriptor) : Bool :=
  decide (d.state ≠ .off) && decide (new.active ≠ d.desc.active)

/-- A Domain Table event that is a completion with DONE, with S judged again (R24, R135). -/
def State.domainDone (s : State) (n : Nat) (d : DomainRecord) : State :=
  s.judgeFrom ((s.setDomain n d).complete (.plain .done))

/-- The completion of a command that has nothing left but it, for the commands whose row is COMMAND_COMPLETION: the one-slot commands
complete at their grants, RESTORE has a row of its own, and a permitted RESET is never in flight (R148, R152, R161, R175). -/
def State.completionOf (s : State) (f : InFlight) : Command → Option State
  | .exchange => some (s.domainDone f.domain.toNat (s.domainAt f.domain.toNat).exchange)
  | .setState =>
    some (s.domainDone f.domain.toNat
      { s.domainAt f.domain.toNat with state := (domainStateOf (field f.value 0 8)).getD .off })
  | .counters => some (s.domainDone f.domain.toNat ((s.domainAt f.domain.toNat).setCounters f.flags f.value))
  | .clearConditions => some (s.domainDone f.domain.toNat ((s.domainAt f.domain.toNat).clearConditions (field f.value 0 8)))
  | .snapshot =>
    let d := s.domainAt f.domain.toNat
    some { s.domainDone f.domain.toNat (if flag0 f.flags then d.reinit else d) with snapshot := d.words }
  | .setDescriptor =>
    let d := s.domainAt f.domain.toNat
    let new := descriptorOf f.staged.domainWords
    some (if d.refusesActive new then s.complete (.plain .domainOn) else s.domainDone f.domain.toNat (d.load new))
  | .scan => some (s.passDone f.domain.toNat .endOfPass .none none 0)
  | .sweep => some (s.passDone f.domain.toNat .done .none none 0)
  | .restore | .writeSlot | .setVerdict | .hold | .release | .confirm | .pin | .unpin | .retire | .readSlot | .reset => none

/-- COMMAND_COMPLETION: the engine's next event of a command refused at its take, or of one that has nothing left but its completion
(R148). A refusal changes nothing else (R150). -/
def execCommandCompletion (s : State) : Out :=
  match s.engine with
  | .busy f =>
    match f.progress, f.command with
    | .refused code, _ => .next (s.complete (.plain code))
    | .complete, some c =>
      match s.completionOf f c with
      | some t => .next t
      | none => .fault .noCompletionDue
    | _, _ => .fault .noCompletionDue
  | .init | .idle => .fault .noCompletionDue

/-- RESTORE_COMPLETION: the copy is loaded, RESTORING becomes no and CURSOR absent, with S judged on the loaded sets (R175, R141). -/
def execRestoreCompletion (s : State) : Out :=
  match s.engine with
  | .busy f =>
    match f.progress, f.command with
    | .complete, some .restore => .next (s.domainDone f.domain.toNat (restoredRecordOf f.staged.domainWords))
    | _, _ => .fault .noCompletionDue
  | .init | .idle => .fault .noCompletionDue

end Sys2Proof.Machine
end

