-- ==== Sys2Proof/Machine/Port.lean ====
section
/-! DEFINITION. The Management Port's registers, windows and frames other than COMMAND (11), and the end of an ATTN pulse. -/

namespace Sys2Proof.Machine

/-! ### What a read shows (Tables 11-2, 11-3) -/

/-- STATUS (Table 11-2). READY is set outside INIT (R143). -/
def State.statusWord (s : State) : Word :=
  0#22 ++ BitVec.ofNat 2 s.pendingTicks ++ bit (!s.inInit) ++ s.engine.code ++ bit s.refused ++ bit s.frameError ++
    bit s.summary ++ bit s.walk.isSome ++ 0#1

/-- ATTN_MODE's code (Table 11-2). -/
def AttnMode.code : AttnMode → BitVec 1
  | .level => 0 | .pulse => 1

/-- ATTN_POLARITY's code (Table 11-2). -/
def AttnPolarity.code : AttnPolarity → BitVec 1
  | .low => 0 | .high => 1

/-- CONTROL (Table 11-2). -/
def State.controlWord (s : State) : Word :=
  0#14 ++ s.linkLevel ++ 0#5 ++ s.summaryStart ++ 0#5 ++ s.attnPolarity.code ++ s.attnMode.code ++ bit s.attnEnable

/-- The value of the register at an address; an address that names none reads zero (R177, R178). -/
def State.register (s : State) (address : Byte) : Word :=
  if address = 0x00#8 then Config.identifier
  else if address = 0x01#8 then s.statusWord
  else if address = 0x02#8 then s.controlWord
  else if address = 0x03#8 then s.ageStep.setWidth 32
  else if address = 0x04#8 then s.deviceSticky.setWidth 32
  else if address = 0x05#8 then s.deviceMask.setWidth 32
  else if address = 0x06#8 then s.domainAttention.setWidth 32
  else if address = 0x07#8 then BitVec.ofNat 32 s.queue.length
  else 0

/-- The word of a window at a position, in the layouts of section 11.6; zero past its last word and for an identifier that names no window
(R179, R185, Table 11-3). -/
def State.windowWord (s : State) (window : Byte) (i : Nat) : Word :=
  if window = 0x00#8 then shownBindingWord s.stagingBinding i
  else if window = 0x01#8 then shownDomainWord s.stagingDomain i
  else if window = 0x02#8 then wordAt s.bindingView i
  else if window = 0x03#8 then wordAt s.snapshot i
  else if window = 0x04#8 then wordAt s.result.words i
  else 0

/-- The eight summary words, and zeros after word 7 (R182). -/
def State.summaryWord (s : State) (i : Nat) : Word :=
  if i = 0 then s.statusWord
  else if i = 1 then s.domainAttention.setWidth 32
  else if i = 2 then s.deviceSticky.setWidth 32
  else if i ≤ 6 then wordAt s.result.words (i - 3)
  else if i = 7 then BitVec.ofNat 32 s.queue.length
  else 0

/-! ### Register writes (R177, R178) -/

/-- A REG_WRITE at the completion of its fourth data byte: ignored in INIT, otherwise its effect; later bytes are ignored (R177, R176). -/
def registerWrite (effect : State → State) (s : State) : Out :=
  s.inFrame .regWrite (.next { (if s.inInit then s else effect s) with frame := .ignoring })

/-- CONTROL written: its five fields, then ATTN judged with the new ones; a pulse in progress ends when the mode is LEVEL (R138). -/
def State.writeControl (data : Word) (s : State) : State :=
  let mode : AttnMode := if data.getLsbD 1 then .pulse else .level
  s.judgeFrom
    { s with
      linkLevel := field data 16 2
      summaryStart := field data 8 3
      attnPolarity := if data.getLsbD 2 then .high else .low
      attnMode := mode
      attnEnable := data.getLsbD 0
      pulse := s.pulse && decide (mode = .pulse) }

/-- AGE_STEP written: the interval in progress is abandoned and one of the new length starts, or none with AGE_STEP 0 (R98). -/
def State.writeAgeStep (data : Word) (s : State) : State :=
  { s with ageStep := field data 0 8, ageInterval := intervalOf (field data 0 8) }

/-- DEVICE_CONDITIONS written: every named member is removed; S is judged again (R133). -/
def State.writeDeviceConditions (data : Word) (s : State) : State :=
  s.judgeFrom { s with deviceSticky := s.deviceSticky &&& ~~~(field data 0 3) }

/-- DEVICE_MASK written: set to the written set; S is judged again (R133). -/
def State.writeDeviceMask (data : Word) (s : State) : State := s.judgeFrom { s with deviceMask := field data 0 3 }

/-- The effect of a write on the register at an address; ID, STATUS, DOMAIN_ATTENTION, QUEUE and an address that names no register ignore
it (R177, R178). -/
def State.writeRegister (address : Byte) (data : Word) (s : State) : State :=
  match regWriteEvent address data with
  | .controlWrite d => s.writeControl d
  | .ageStepWrite d => s.writeAgeStep d
  | .deviceConditionsWrite d => s.writeDeviceConditions d
  | .deviceMaskWrite d => s.writeDeviceMask d
  | _ => s

/-- CONTROL_WRITE (R138). -/
def execControlWrite (data : Word) (s : State) : Out := registerWrite (State.writeControl data) s
/-- AGE_STEP_WRITE (R98). -/
def execAgeStepWrite (data : Word) (s : State) : Out := registerWrite (State.writeAgeStep data) s
/-- DEVICE_CONDITIONS_WRITE (R133). -/
def execDeviceConditionsWrite (data : Word) (s : State) : Out := registerWrite (State.writeDeviceConditions data) s
/-- DEVICE_MASK_WRITE (R133). -/
def execDeviceMaskWrite (data : Word) (s : State) : Out := registerWrite (State.writeDeviceMask data) s
/-- REG_WRITE: ignored for the addresses of this row (R178). An address that has a row of its own is written as that row gives
(log entry 10). -/
def execRegWrite (address : Byte) (data : Word) (s : State) : Out := registerWrite (State.writeRegister address data) s

/-! ### Reads (R177, R179, R182) -/

/-- A word sent in full on SDO. -/
def State.sent (s : State) (w : Word) : State := { s with sdoWords := s.sdoWords ++ [w] }

/-- A STATUS word sent in full clears FRAME_ERROR (R176). -/
def State.clearFrameErrorIf (s : State) (b : Bool) : State := if b then { s with frameError := false } else s

/-- STATUS_READ: a REG_READ frame. At its address byte the register's value is taken as it stands; when the word has been sent in full, a
STATUS word clears FRAME_ERROR (R176, R177). -/
def execStatusRead (e : RegReadEvent) (s : State) : Out :=
  match e with
  | .address a => s.inFrame .regRead (.next { s with frame := .regRead a (s.register a) })
  | .sent =>
    match s.frame with
    | .regRead a w => .next { (s.sent w).clearFrameErrorIf (a == 0x01#8) with frame := .ignoring }
    | _ => strayByte s

/-- WINDOW_READ: each word's value is taken at the completion of the byte before its first (R179). -/
def execWindowRead (e : WindowReadEvent) (s : State) : Out :=
  match e with
  | .header w start => s.inFrame .windowRead (.next { s with frame := .windowRead w start.toNat (s.windowWord w start.toNat) })
  | .word =>
    match s.frame with
    | .windowRead w i x => .next { s.sent x with frame := .windowRead w (i + 1) (s.windowWord w (i + 1)) }
    | _ => strayByte s

/-- The window has a word at the position, and a WINDOW_WRITE may write it: the staging windows alone (R179, Table 11-3). -/
def writable (window : Byte) (i : Nat) : Bool :=
  (decide (window = 0x00#8) && decide (i < 16)) || (decide (window = 0x01#8) && decide (i < 24))

/-- A data word written into a staging window: positions that its layout does not list are ignored (R179, section 11.6). -/
def State.writeWindow (s : State) (window : Byte) (i : Nat) (data : Word) : State :=
  if window = 0x00#8 then { s with stagingBinding := s.stagingBinding.setIfInBounds i (data &&& wordAt bindingPositions i) }
  else if window = 0x01#8 then { s with stagingDomain := s.stagingDomain.setIfInBounds i (data &&& wordAt domainPositions i) }
  else s

/-- WINDOW_WRITE: each group of four data bytes is written at the completion of its fourth, at the start word plus the number of words
already written by the frame; past the window's last word, in any other window, and in INIT it is discarded, so the position stays
(R179). -/
def execWindowWrite (e : WindowWriteEvent) (s : State) : Out :=
  match e with
  | .header w start => s.inFrame .windowWrite (.next { s with frame := .windowWrite w start.toNat })
  | .word data =>
    match s.frame with
    | .windowWrite w i =>
      if s.inInit = false ∧ writable w i = true then .next { s.writeWindow w i data with frame := .windowWrite w (i + 1) }
      else .next s
    | _ => strayByte s

/-- A SUMMARY frame at its frame code: the first word is the one of SUMMARY_START (R182). -/
def State.openSummary (s : State) : State :=
  { s with frame := .summary s.summaryStart.toNat (s.summaryWord s.summaryStart.toNat) }

/-- SUMMARY: the summary words from SUMMARY_START on; word 0 sent in full clears FRAME_ERROR (R176, R182). -/
def execSummary (e : SummaryEvent) (s : State) : Out :=
  match e with
  | .code => if s.frame = .selected then .next s.openSummary else strayByte s
  | .word =>
    match s.frame with
    | .summary i w =>
      .next { (s.sent w).clearFrameErrorIf (i == 0) with frame := .summary (i + 1) (s.summaryWord (i + 1)) }
    | _ => strayByte s

/-- The port judges a completed frame code by Table 11-1 (R176): one that names no kind sets STATUS.FRAME_ERROR, except while RESET_N is
held, and the rest of the frame is ignored (R188); one that names a kind opens a frame of it. SUMMARY's code acts at once (R182). -/
def State.judgeCode (s : State) (code : Byte) : State :=
  match frameKindOf code with
  | none => { s with frameError := s.frameError || !s.resetHeld, frame := .ignoring }
  | some .summary => s.openSummary
  | some k => { s with frame := .opened k }

/-- FRAME_ERROR: a frame begins at the fall of CS_N, and the frame code, its first byte, is judged at its completion (R176, log entry 8). A
fall of CS_N while it is low changes nothing (log entry 6). -/
def execFrameError (e : FrameOpening) (s : State) : Out :=
  match e with
  | .fall => .next { s with frame := if s.frame = .idle then .selected else s.frame }
  | .code c => if s.frame = .selected then .next (s.judgeCode c) else strayByte s

/-- FRAME_END: at the rise of CS_N the frame ends, whatever byte it had reached, and effects of bytes not yet completed do not happen
(R176). -/
def execFrameEnd (s : State) : Out := .next { s with frame := .idle }

/-! ### SDO (R176) -/

/-- What the port does with SDO during a byte. -/
inductive Sdo where
  /-- CS_N is high: SDO is not driven. -/
  | notDriven
  /-- No output data is defined for the byte: SDO is driven 0. -/
  | zero
  /-- The byte is one of the four bytes of a word, sent most significant byte first. -/
  | word (w : Word)
  deriving DecidableEq, Repr

/-- SDO, by the frame in progress: the word whose value has been taken for a read (R177, R179, R182), 0 in every other byte of a frame, and
not driven outside one (R176, R181, R188). -/
def State.sdo (s : State) : Sdo :=
  match s.frame with
  | .idle => .notDriven
  | .regRead _ w | .windowRead _ _ w | .summary _ w => .word w
  | .selected | .opened _ | .windowWrite _ _ | .ignoring => .zero

/-- ATTN_PULSE_END: the pulse in progress ends (R137). -/
def execAttnPulseEnd (s : State) : Out := if s.pulse then .next { s with pulse := false } else .fault .noPulse

end Sys2Proof.Machine
end

