-- ==== Sys2Proof/Machine/Reset.lean ====
section
/-! DEFINITION. The reset lines, power-on, and the end of INIT. -/

namespace Sys2Proof.Machine

/-- POWER_ON: a full reset (R21). -/
def execPowerOn (s : State) : Out := .next s.fullReset

/-- RESET_N_ASSERT: a full reset, and RESET_N is held from then on (R21, R188). -/
def execResetNAssert (s : State) : Out := .next { s.fullReset with resetHeld := true }

/-- RESET_N_RELEASE: the clearing starts; no reset value is applied again (R67, R188). -/
def execResetNRelease (s : State) : Out := .next { s with resetHeld := false }

/-- TABLE_CLEARING_COMPLETION: INIT ends, the Command Engine is IDLE (so STATUS.READY is set), admission begins, the age timer starts
its first interval, and S is judged again (R22, R98, R142). -/
def execTableClearingCompletion (s : State) : Out :=
  if s.clearing then
    .next (s.judgeFrom { s with engine := .idle, ageInterval := intervalOf s.ageStep })
  else .fault .noClearing

/-- LINK_RESET_ASSERT: every queued request is discarded unanswered, the Search Engine's claim is withdrawn and it is EMPTY; nothing
else changes (R81, R19). -/
def execLinkResetAssert (s : State) : Out :=
  .next { s with linkReset := true, queue := [], holding := false, searchClaim := false }

/-- LINK_RESET_RELEASE: arrivals are judged again (R82). -/
def execLinkResetRelease (s : State) : Out := .next { s with linkReset := false }

end Sys2Proof.Machine
end

