-- ==== Sys2Proof/Machine/Search.lean ====
section
/-! DEFINITION. Matching (03), the search, and the search events of LOOKUP, PROBE and TOUCH (04, 05). -/

namespace Sys2Proof.Machine

/-! ### Comparing a binding with a request (section 3.3) -/

/-- The role test (R50). -/
def roleTest (b k : Role) : Bool := decide (b = .either) || decide (b = k)

/-- One octet position: compared only when ADDR_MASK names it (R51). -/
def octetTest (named : Bool) (b k : Byte) : Bool := !named || b == k

/-- The address test (R51). -/
def addrTest (mask : BitVec 6) (b k : Addr) : Bool :=
  octetTest (mask.getLsbD 5) b.a0 k.a0 && octetTest (mask.getLsbD 4) b.a1 k.a1 && octetTest (mask.getLsbD 3) b.a2 k.a2 &&
  octetTest (mask.getLsbD 2) b.a3 k.a3 && octetTest (mask.getLsbD 1) b.a4 k.a4 && octetTest (mask.getLsbD 0) b.a5 k.a5

/-- The first `p` bits of two addresses of one width are equal, from the most significant bit (R52). -/
def prefixEqual {n : Nat} (p : Nat) (a b : BitVec n) : Bool := a >>> (n - p) == b >>> (n - p)

/-- The network test (R52, Table 3-2). -/
def netTest (b : Option NetPart) (k : Option NetAddress) : Bool :=
  match b, k with
  | none, _ => true
  | some _, none => false
  | some n, some a =>
    match n.address, a with
    | .v4 x, .v4 y => prefixEqual n.pre.toNat x y != n.invert
    | .v6 x, .v6 y => prefixEqual n.pre.toNat x y != n.invert
    | .v4 _, .v6 _ => false
    | .v6 _, .v4 _ => false

/-- The port test (R53). -/
def portTest (b : Option Ports) (k : Option (BitVec 16)) : Bool :=
  match b, k with
  | none, _ => true
  | some _, none => false
  | some p, some q => decide (p.lo.toNat ≤ q.toNat) && decide (q.toNat ≤ p.hi.toNat)

/-- The protocol test (R54). -/
def protoTest (b k : Option Byte) : Bool :=
  match b, k with
  | none, _ => true
  | some _, none => false
  | some p, some q => p == q

/-- A binding matches a request when its five tests pass (R55). -/
def keyMatches (r : Slot) (k : Key) : Bool :=
  roleTest r.role k.role && addrTest r.addrMask r.addr k.addr && netTest r.net k.net && portTest r.ports k.port &&
    protoTest r.proto k.proto

/-! ### The search (section 3.4) -/

/-- The first slot of a segment, in index order, that is not FREE and matches (R56, R57). -/
def State.search (s : State) (g : Segment) (k : Key) : Option Nat :=
  g.slots.find? (fun i => decide ((s.slotAt i).state ≠ .free) && keyMatches (s.slotAt i) k)

/-- The lowest-indexed FREE slot of a segment (R85). -/
def State.firstFree (s : State) (g : Segment) : Option Nat :=
  g.slots.find? (fun i => decide ((s.slotAt i).state = .free))

/-! ### What a search event does -/

/-- The effect of one search event: the one slot it writes, if any (R17), its domain's record after it, and its response. -/
structure SearchEffect where
  slot     : Option (Nat × Slot)
  record   : DomainRecord
  response : Response
  deriving DecidableEq, Repr

/-- An event that changes nothing and answers an outcome alone. -/
def SearchEffect.bare (d : DomainRecord) (tag : BitVec 6) (o : LinkOutcome) : SearchEffect :=
  { slot := none, record := d, response := .bare tag o }

/-- The handle of a slot as it stands (R13, R80). -/
def State.handleOf (s : State) (i : Nat) : Handle := { slot := i, gen := (s.slotAt i).gen }

/-- The response under the outcome rule: the handle only for HELD, the default verdict only for a DEFAULTED LOOKUP (R130). -/
def ruledResponse (tag : BitVec 6) (raised : List Condition) (d : DomainRecord) (handle : Option Handle) (isLookup : Bool) :
    Response :=
  let (outcome, condition) := outcomeRule raised d.desc.mask
  { tag := tag, outcome := outcome, condition := condition
    handle := if condition = some .held then handle else none
    verdict := if isLookup ∧ outcome = .defaulted then some d.desc.defaultVerdict else none }

/-- The response that carries a slot's handle and verdict. -/
def slotResponse (tag : BitVec 6) (o : LinkOutcome) (h : Handle) (v : Verdict) : Response :=
  { tag := tag, outcome := o, condition := none, handle := some h, verdict := some v }

/-! ### LOOKUP (R72 to R75, R84 to R88) -/

/-- The greatest PREFIX of an address, as a learned binding holds it (Table 5-1). -/
def fullPrefix : NetAddress → Byte
  | .v4 _ => 32
  | .v6 _ => 128

/-- The learned record of Table 5-1 (R86). -/
def learnedRecord (former : Slot) (domain : BitVec 4) (k : Key) (length : BitVec 16) (v : Verdict) : Slot :=
  { state := .provisional, gen := former.gen + 1, domain := domain
    addr := k.addr, addrMask := 0x3F, role := k.role
    net := k.net.map (fun a => { address := a, pre := fullPrefix a, invert := false })
    ports := none, proto := none, verdict := v, level := .active, idle := 0
    pinned := false, learned := true, readPending := true, frames := 1, octets := length.setWidth 40 }

/-- A LOOKUP that matched slot `i` (R73, R74): a counted hit in all three states. `d` already holds the counted LOOKUPS. -/
def lookupHit (s : State) (tag : BitVec 6) (length : BitVec 16) (d : DomainRecord) (i : Nat) : SearchEffect :=
  let r := s.slotAt i
  let stop := d.desc.countStop
  let hit := r.countHit stop length
  let wrap := hitWraps stop length r
  match r.state with
  | .held =>
    { slot := some (i, hit)
      record := ((d.count .heldHits).raise .held).raiseIf wrap .wrap
      response := ruledResponse tag [.held] d (some (s.handleOf i)) true }
  | .provisional =>
    { slot := some (i, hit), record := (d.count .hits).raiseIf wrap .wrap
      response := slotResponse tag .provisional (s.handleOf i) r.verdict }
  | .live | .free =>
    { slot := some (i, hit), record := (d.count .hits).raiseIf wrap .wrap
      response := slotResponse tag .hit (s.handleOf i) r.verdict }

/-- A LOOKUP with no match makes a learning attempt (R75, R84). -/
def learnAllowed (d : DomainRecord) (learn : Bool) (level : BitVec 2) : Bool :=
  learn && decide (d.state = .on) && d.desc.learning && decide (level ≤ d.desc.learnLevel)

/-- A LOOKUP that matched nothing (R75, R86 to R88). `d` already holds the counted LOOKUPS. -/
def lookupMiss (s : State) (r : Request) (learn : Bool) (k : Key) (length : BitVec 16) (level : BitVec 2) (d : DomainRecord) :
    SearchEffect :=
  if learnAllowed d learn level then
    match s.firstFree d.desc.active with
    | some i =>
      let new := learnedRecord (s.slotAt i) r.domain k length d.desc.provVerdict
      { slot := some (i, new), record := d.count .learned
        response := slotResponse r.tag .learned { slot := i, gen := new.gen } new.verdict }
    | none =>
      { slot := none, record := ((d.count .misses).raise .full).raise .miss
        response := ruledResponse r.tag [.full, .miss] d none true }
  else
    { slot := none, record := (d.count .misses).raise .miss
      response := ruledResponse r.tag [.miss] d none true }

/-- The LOOKUP search event (R72). -/
def lookupEffect (s : State) (r : Request) (learn : Bool) (k : Key) (length : BitVec 16) : SearchEffect :=
  let d := s.domainAt r.domain.toNat
  let level := requestLevel s.linkLevel r.rpl
  if d.outOfService then .bare d r.tag .off
  else
    let counted := d.count .lookups
    if d.desc.lookupLevel < level then
      { slot := none, record := (counted.count .denied).raise .denied
        response := ruledResponse r.tag [.denied] d none true }
    else match s.search d.desc.active k with
      | some i => lookupHit s r.tag length counted i
      | none => lookupMiss s r learn k length level counted

/-! ### PROBE (R77) -/

/-- The outcome of a PROBE's first match, by the slot's state (R77). -/
def probeOutcome : SlotState → LinkOutcome
  | .live | .free => .hit
  | .provisional => .provisional
  | .held => .held

/-- The PROBE search event: it changes nothing but the queue (R77). -/
def probeEffect (s : State) (r : Request) (k : Key) : SearchEffect :=
  let d := s.domainAt r.domain.toNat
  if d.outOfService then .bare d r.tag .off
  else if d.desc.lookupLevel < requestLevel s.linkLevel r.rpl then .bare d r.tag .noAccess
  else match s.search d.desc.active k with
    | some i =>
      { slot := none, record := d
        response := slotResponse r.tag (probeOutcome (s.slotAt i).state) (s.handleOf i) (s.slotAt i).verdict }
    | none => .bare d r.tag .none

/-! ### TOUCH (R78, R79) -/

/-- The handle names a binding of the domain's active segment (R79). -/
def State.namesActive (s : State) (d : DomainRecord) (i : Nat) (gen : Byte) : Bool :=
  d.desc.active.has i && decide ((s.slotAt i).state ≠ .free) && (s.slotAt i).gen == gen

/-- The TOUCH search event (R78, R79). -/
def touchEffect (s : State) (r : Request) (slot : BitVec 10) (gen : Byte) : SearchEffect :=
  let d := s.domainAt r.domain.toNat
  if d.outOfService then .bare d r.tag .off
  else
    let counted := d.count .touches
    if d.desc.lookupLevel < requestLevel s.linkLevel r.rpl then
      { slot := none, record := counted.raise .denied, response := ruledResponse r.tag [.denied] d none false }
    else if s.namesActive d slot.toNat gen then
      { slot := some (slot.toNat, (s.slotAt slot.toNat).refresh), record := counted
        response := { tag := r.tag, outcome := .touched, condition := none
                      handle := some (s.handleOf slot.toNat), verdict := none } }
    else
      { slot := none, record := counted.raise .stale, response := ruledResponse r.tag [.stale] d none false }

/-! ### The event -/

/-- A slot written, if the effect writes one. -/
def State.writeSlot? (s : State) : Option (Nat × Slot) → State
  | some (i, r) => s.setSlot i r
  | none => s

/-- A search event under its grant: the effects on the slot and the domain, the response sent, the request gone from the queue, the
Search Engine EMPTY (R17, R71), and ATTN judged (R135). -/
def State.searchEvent (s : State) (r : Request) (rest : List Request) (e : SearchEffect) : State :=
  s.judgeFrom
    ((({ s.grant .search with queue := rest, holding := false }.writeSlot? e.slot).setDomain r.domain.toNat e.record).respond
      e.response)

/-- LOOKUP_SEARCH_EVENT: the grant to the Search Engine while it holds a LOOKUP (R17, R72). -/
def execLookupSearchEvent (s : State) : Out :=
  if s.nextGrant = some .search then
    match s.queue with
    | [] => .fault .grantNotDue
    | r :: rest =>
      match r.question with
      | .lookup learn k length => .next (s.searchEvent r rest (lookupEffect s r learn k length))
      | .probe _ => .fault .grantNotDue
      | .touch _ _ => .fault .grantNotDue
  else .fault .grantNotDue

/-- PROBE_SEARCH_EVENT: the grant to the Search Engine while it holds a PROBE (R17, R77). -/
def execProbeSearchEvent (s : State) : Out :=
  if s.nextGrant = some .search then
    match s.queue with
    | [] => .fault .grantNotDue
    | r :: rest =>
      match r.question with
      | .probe k => .next (s.searchEvent r rest (probeEffect s r k))
      | .lookup _ _ _ => .fault .grantNotDue
      | .touch _ _ => .fault .grantNotDue
  else .fault .grantNotDue

/-- TOUCH_SEARCH_EVENT: the grant to the Search Engine while it holds a TOUCH (R17, R78). -/
def execTouchSearchEvent (s : State) : Out :=
  if s.nextGrant = some .search then
    match s.queue with
    | [] => .fault .grantNotDue
    | r :: rest =>
      match r.question with
      | .touch slot gen => .next (s.searchEvent r rest (touchEffect s r slot gen))
      | .lookup _ _ _ => .fault .grantNotDue
      | .probe _ => .fault .grantNotDue
  else .fault .grantNotDue

end Sys2Proof.Machine
end

