-- ==== Sys2Proof/Machine/Dispatch.lean ====
section
/-! DEFINITION. One arm for each row of spec/opcode_table.json, in the table's order. -/

namespace Sys2Proof.Machine

/-- The effect of one event, on everything but the queue of events. -/
def exec (i : Instr) (s : State) : Host.Outcome State Fault Refusal :=
  match i with
  | .powerOn => Sys2Proof.Machine.execPowerOn s
  | .resetNAssert => Sys2Proof.Machine.execResetNAssert s
  | .resetNRelease => Sys2Proof.Machine.execResetNRelease s
  | .tableClearingCompletion => Sys2Proof.Machine.execTableClearingCompletion s
  | .linkResetAssert => Sys2Proof.Machine.execLinkResetAssert s
  | .linkResetRelease => Sys2Proof.Machine.execLinkResetRelease s
  | .requestArrival words => Sys2Proof.Machine.execRequestArrival words s
  | .takeHead => Sys2Proof.Machine.execTakeHead s
  | .lookupSearchEvent => Sys2Proof.Machine.execLookupSearchEvent s
  | .probeSearchEvent => Sys2Proof.Machine.execProbeSearchEvent s
  | .touchSearchEvent => Sys2Proof.Machine.execTouchSearchEvent s
  | .ageTimerExpiry => Sys2Proof.Machine.execAgeTimerExpiry s
  | .walkStart => Sys2Proof.Machine.execWalkStart s
  | .walkStep => Sys2Proof.Machine.execWalkStep s
  | .writeSlot o => Sys2Proof.Machine.execWriteSlot o s
  | .setVerdict o => Sys2Proof.Machine.execSetVerdict o s
  | .hold o => Sys2Proof.Machine.execHold o s
  | .release o => Sys2Proof.Machine.execRelease o s
  | .confirm o => Sys2Proof.Machine.execConfirm o s
  | .pin o => Sys2Proof.Machine.execPin o s
  | .unpin o => Sys2Proof.Machine.execUnpin o s
  | .retire o => Sys2Proof.Machine.execRetire o s
  | .readSlot o => Sys2Proof.Machine.execReadSlot o s
  | .scan o => Sys2Proof.Machine.execScan o s
  | .sweep o => Sys2Proof.Machine.execSweep o s
  | .setDescriptor o => Sys2Proof.Machine.execSetDescriptor o s
  | .exchange o => Sys2Proof.Machine.execExchange o s
  | .setState o => Sys2Proof.Machine.execSetState o s
  | .snapshot o => Sys2Proof.Machine.execSnapshot o s
  | .restore o => Sys2Proof.Machine.execRestore o s
  | .counters o => Sys2Proof.Machine.execCounters o s
  | .clearConditions o => Sys2Proof.Machine.execClearConditions o s
  | .reset o => Sys2Proof.Machine.execReset o s
  | .unknownCommand opcode o => Sys2Proof.Machine.execUnknownCommand opcode o s
  | .commandGrant => Sys2Proof.Machine.execCommandGrant s
  | .passVisit => Sys2Proof.Machine.execPassVisit s
  | .descriptorExaminationGrant => Sys2Proof.Machine.execDescriptorExaminationGrant s
  | .restoreExaminationGrant => Sys2Proof.Machine.execRestoreExaminationGrant s
  | .commandCompletion => Sys2Proof.Machine.execCommandCompletion s
  | .restoreCompletion => Sys2Proof.Machine.execRestoreCompletion s
  | .attnPulseEnd => Sys2Proof.Machine.execAttnPulseEnd s
  | .controlWrite data => Sys2Proof.Machine.execControlWrite data s
  | .ageStepWrite data => Sys2Proof.Machine.execAgeStepWrite data s
  | .deviceConditionsWrite data => Sys2Proof.Machine.execDeviceConditionsWrite data s
  | .deviceMaskWrite data => Sys2Proof.Machine.execDeviceMaskWrite data s
  | .regWrite address data => Sys2Proof.Machine.execRegWrite address data s
  | .statusRead e => Sys2Proof.Machine.execStatusRead e s
  | .windowRead e => Sys2Proof.Machine.execWindowRead e s
  | .windowWrite e => Sys2Proof.Machine.execWindowWrite e s
  | .summary e => Sys2Proof.Machine.execSummary e s
  | .frameError e => Sys2Proof.Machine.execFrameError e s
  | .frameEnd => Sys2Proof.Machine.execFrameEnd s

end Sys2Proof.Machine
end

