-- ==== Sys2Proof/WellFormed.lean ====
section
/-! DEFINITION. Which terms of `Instr` are events of the row their constructor names. -/

namespace Sys2Proof

/-- A term is well-formed when its operands are ones its row has: UNKNOWN_COMMAND's opcode names no command (R151), FRAME_ERROR's
code is not the one at which SUMMARY's row acts (R176, R182), and REG_WRITE's address is not one of the four registers whose writes have rows of their own
(R178). The operands of every other row are bit vectors of the width the spec gives. -/
def Instr.wellFormed : Instr → Bool
  | .unknownCommand opcode _ => (commandOfOpcode opcode).isNone
  | .frameError (.code c) => frameCodeEvent c == .frameError (.code c)
  | .regWrite address data => regWriteEvent address data == .regWrite address data
  | .powerOn | .resetNAssert | .resetNRelease | .tableClearingCompletion | .linkResetAssert | .linkResetRelease
  | .requestArrival _ | .takeHead | .lookupSearchEvent | .probeSearchEvent | .touchSearchEvent
  | .ageTimerExpiry | .walkStart | .walkStep
  | .writeSlot _ | .setVerdict _ | .hold _ | .release _ | .confirm _ | .pin _ | .unpin _ | .retire _ | .readSlot _
  | .scan _ | .sweep _ | .setDescriptor _ | .exchange _ | .setState _ | .snapshot _ | .restore _ | .counters _
  | .clearConditions _ | .reset _
  | .commandGrant | .passVisit | .descriptorExaminationGrant | .restoreExaminationGrant | .commandCompletion
  | .restoreCompletion | .attnPulseEnd
  | .controlWrite _ | .ageStepWrite _ | .deviceConditionsWrite _ | .deviceMaskWrite _
  | .statusRead _ | .windowRead _ | .windowWrite _ | .summary _ | .frameError .fall | .frameEnd => true

end Sys2Proof
end

