-- ==== Sys2Proof/Safety.lean ====
section
/-! DEFINITION. What claims are stated in: where an event is due, and the invariants of the part. -/

namespace Sys2Proof.Machine

/-! ### Where an event is due -/

/-- The Command Engine's grant is next, and the command in flight passes a test. -/
def State.commandGrantDue (s : State) (p : Command → Progress → Bool) : Bool :=
  decide (s.nextGrant = some .command) &&
    match s.engine with
    | .busy f => match f.command with | some c => p c f.progress | none => false
    | .init | .idle => false

/-- The Search Engine's grant is next, and the head request passes a test. -/
def State.searchGrantDue (s : State) (p : Question → Bool) : Bool :=
  decide (s.nextGrant = some .search) && match s.queue with | r :: _ => p r.question | [] => false

/-- A command waits for COMMAND_COMPLETION: it was refused at its take, or nothing is left of it but its completion (R148). -/
def State.completionDue (s : State) : Bool :=
  match s.engine with
  | .busy f =>
    match f.progress, f.command with
    | .refused _, _ => true
    | .complete, some c =>
      decide (c ∈ [.scan, .sweep, .setDescriptor, .exchange, .setState, .snapshot, .counters, .clearConditions])
    | _, _ => false
  | .init | .idle => false

/-- A byte that comes in this state of the frame may complete: the frame is in it, or every further byte is ignored (R176). -/
def State.awaits (s : State) (f : Frame) : Bool := decide (s.frame = f) || decide (s.frame = .ignoring)

/-- Whether the spec lets an event occur in a state. An event of a line (CS_N among them) and a request always may; the completion of a
frame's byte may where the frame has come to that byte, or its bytes are ignored. -/
def due (c : Instr) (s : State) : Bool :=
  match c with
  | .tableClearingCompletion => s.inInit && !s.resetHeld
  | .takeHead => !s.holding && !s.queue.isEmpty
  | .lookupSearchEvent => s.searchGrantDue (fun q => match q with | .lookup _ _ _ => true | .probe _ | .touch _ _ => false)
  | .probeSearchEvent => s.searchGrantDue (fun q => match q with | .probe _ => true | .lookup _ _ _ | .touch _ _ => false)
  | .touchSearchEvent => s.searchGrantDue (fun q => match q with | .touch _ _ => true | .lookup _ _ _ | .probe _ => false)
  | .ageTimerExpiry => s.ageInterval.isSome
  | .walkStart => s.walk.isNone && decide (0 < s.pendingTicks) && !s.inInit
  | .walkStep => decide (s.nextGrant = some .ageing) && s.walk.isSome
  | .commandGrant => s.commandGrantDue (fun c p => usesSlot c && decide (p = .grant))
  | .passVisit =>
    s.commandGrantDue (fun c p =>
      decide (c ∈ [.scan, .sweep]) &&
        match p with | .visit _ _ _ => true | .refused _ | .complete | .grant | .examine _ => false)
  | .descriptorExaminationGrant =>
    s.commandGrantDue (fun c p =>
      decide (c = .setDescriptor) &&
        match p with | .examine _ => true | .refused _ | .complete | .grant | .visit _ _ _ => false)
  | .restoreExaminationGrant =>
    s.commandGrantDue (fun c p =>
      decide (c = .restore) && match p with | .examine _ => true | .refused _ | .complete | .grant | .visit _ _ _ => false)
  | .commandCompletion => s.completionDue
  | .restoreCompletion =>
    match s.engine with
    | .busy f => decide (f.command = some .restore) && decide (f.progress = .complete)
    | .init | .idle => false
  | .attnPulseEnd => s.pulse
  | .statusRead .sent => match s.frame with | .regRead _ _ | .ignoring => true | _ => false
  | .windowRead .word => match s.frame with | .windowRead _ _ _ | .ignoring => true | _ => false
  | .windowWrite (.word _) => match s.frame with | .windowWrite _ _ | .ignoring => true | _ => false
  | .summary .word => match s.frame with | .summary _ _ | .ignoring => true | _ => false
  | .frameError (.code _) | .summary .code => s.awaits .selected
  | .statusRead (.address _) => s.awaits (.opened .regRead)
  | .windowRead (.header _ _) => s.awaits (.opened .windowRead)
  | .windowWrite (.header _ _) => s.awaits (.opened .windowWrite)
  | .controlWrite _ | .ageStepWrite _ | .deviceConditionsWrite _ | .deviceMaskWrite _ | .regWrite _ _ =>
    s.awaits (.opened .regWrite)
  | .writeSlot _ | .setVerdict _ | .hold _ | .release _ | .confirm _ | .pin _ | .unpin _ | .retire _ | .readSlot _
  | .scan _ | .sweep _ | .setDescriptor _ | .exchange _ | .setState _ | .snapshot _ | .restore _ | .counters _
  | .clearConditions _ | .reset _ | .unknownCommand _ _ => s.awaits (.opened .command)
  | .powerOn | .resetNAssert | .resetNRelease | .linkResetAssert | .linkResetRelease | .requestArrival _ | .frameError .fall | .frameEnd => true

/-! ### Records that the part may hold -/

/-- A network part's PREFIX lies within its family (R4). -/
def netWellFormed : Option NetPart → Bool
  | none => true
  | some n => decide (n.pre.toNat ≤ n.address.maxPrefix)

/-- A port range is not empty (R5). -/
def portsWellFormed : Option Ports → Bool
  | none => true
  | some p => decide (p.lo.toNat ≤ p.hi.toNat)

/-- A slot record as the part may hold it: a FREE one is the FREE record (R10), a PROVISIONAL one has LEARNED yes, PINNED no and LEVEL
ACTIVE (R7), and every one is well-formed by the terms of R48 (R49). -/
def Slot.wellFormed (r : Slot) : Bool :=
  (decide (r.state ≠ .free) || decide (r = .free r.gen)) &&
  (decide (r.state ≠ .provisional) || (r.learned && !r.pinned && decide (r.level = .active))) &&
  netWellFormed r.net && portsWellFormed r.ports

/-- A request as the queue may hold it: a request's ROLE is not EITHER, and a LOOKUP's LENGTH is 1..16383 (R46). -/
def Request.wellFormed (r : Request) : Bool :=
  match r.question with
  | .lookup _ k length =>
    decide (k.role ≠ .either) && decide (1 ≤ length.toNat) && decide (length.toNat ≤ 16383)
  | .probe k => decide (k.role ≠ .either)
  | .touch _ _ => true

/-! ### Words by their bits (section 11.6) -/

/-- The number in the `len` bits of a word from bit `lo` up. -/
def bitsAt (w : Word) (lo len : Nat) : Nat := w.toNat / 2 ^ lo % 2 ^ len

/-- A verdict as the number of its word: ACTION in 31..24, CLASS in 23..16, GROUP in 15..8, MARK in 7..0 (word 9 of Table 11-6). -/
def Verdict.number (v : Verdict) : Nat :=
  (match v.action with | .drop => 0 | .forward => 1 | .divert => 2) * 2 ^ 24 + v.cls.toNat * 2 ^ 16 + v.group.toNat * 2 ^ 8 +
    v.mark.toNat

/-- A verdict's word that R37 and R48 refuse: its ACTION code names none of the three, or its CLASS or GROUP lies outside its range. -/
def badVerdict (w : Word) : Prop := 2 < bitsAt w 24 8 ∨ 7 < bitsAt w 16 8 ∨ 63 < bitsAt w 8 8

/-- A segment's word that breaks the bounds of R25: base 0..1023, size 0..1024, and their sum at most 1024. -/
def badSegment (w : Word) : Prop := 1023 < bitsAt w 16 16 ∨ 1024 < bitsAt w 0 16 ∨ 1024 < bitsAt w 16 16 + bitsAt w 0 16

/-- A copy of STAGING_DOMAIN that R37 refuses. -/
def badDescriptor (v : Vector Word 24) : Prop := badSegment v[3] ∨ badSegment v[4] ∨ badVerdict v[8] ∨ badVerdict v[9]

/-- A copy of STAGING_BINDING that R48 refuses, by the bits of Table 11-6: its ROLE; the FAMILY and PREFIX of a present NET; the range of
present PORTS; its VERDICT; the requested state. The fields of an absent part are not judged. -/
def badBinding (v : Vector Word 16) : Prop :=
  2 < bitsAt v[1] 24 8 ∨
  (bitsAt v[1] 15 1 = 1 ∧
    (1 < bitsAt v[3] 8 8 ∨ (bitsAt v[3] 8 8 = 0 ∧ 32 < bitsAt v[3] 0 8) ∨ (bitsAt v[3] 8 8 = 1 ∧ 128 < bitsAt v[3] 0 8))) ∨
  (bitsAt v[1] 14 1 = 1 ∧ bitsAt v[8] 0 16 < bitsAt v[8] 16 16) ∨
  badVerdict v[9] ∨
  (bitsAt v[0] 24 8 ≠ 2 ∧ bitsAt v[0] 24 8 ≠ 3)

/-- The level a command needs, by Table 9-3 (R30). -/
def Descriptor.needs (d : Descriptor) (c : Command) : Nat :=
  if c ∈ [.readSlot, .scan] then d.lookupLevel.toNat
  else if c ∈ [.writeSlot, .setVerdict, .hold, .release, .confirm, .pin, .unpin, .retire, .sweep] then d.editLevel.toNat
  else 0

/-- The commands that use a slot operand, by Table 9-3: the nine one-slot commands. -/
def slotCommands : List Command := [.writeSlot, .setVerdict, .hold, .release, .confirm, .pin, .unpin, .retire, .readSlot]

/-- The visited slot fits every criterion of a pass, by the bits of Table 11-5 in the flags operand (R165). -/
abbrev fitsCriteria (flags : Word) (r : Slot) : Prop :=
  (match r.state with
    | .free => 0 | .provisional => bitsAt flags 3 1 | .live => bitsAt flags 4 1 | .held => bitsAt flags 5 1) = 1 ∧
  bitsAt flags 6 2 ≤ r.level.depth ∧
  (bitsAt flags 8 2 = 1 → r.learned = true) ∧ (bitsAt flags 8 2 = 2 → r.learned = false) ∧
  (bitsAt flags 10 2 = 1 → r.readPending = true) ∧ (bitsAt flags 10 2 = 2 → r.readPending = false) ∧
  (bitsAt flags 2 1 = 1 ∨ r.pinned = false)

/-- The segment that a pass walks, by bit 1 of its flags operand (Table 11-5). -/
def segmentAsked (flags : Word) : SegmentName := if bitsAt flags 1 1 = 1 then .standby else .active

/-! ### What claims say about one event -/

/-- The row of the search event that serves a request (R17). -/
def Question.row : Question → Instr
  | .lookup _ _ _ => .lookupSearchEvent
  | .probe _ => .probeSearchEvent
  | .touch _ _ => .touchSearchEvent

/-- The next grant is the Search Engine's, and it holds `r` at the head of the queue. -/
def State.serves (s : State) (r : Request) (rest : List Request) : Prop := s.nextGrant = some .search ∧ s.queue = r :: rest

/-- The record of a request's domain. -/
abbrev State.domainOf (s : State) (r : Request) : DomainRecord := s.domainAt r.domain.toNat

/-- The domain answers requests: it is not OFF and not RESTORING. -/
def DomainRecord.inService (d : DomainRecord) : Prop := d.state ≠ .off ∧ d.restoring = false

/-- The request passes the check against LOOKUP_LEVEL: the greater of LINK_LEVEL and RPL is at or below it (R28, R30). -/
def State.admits (s : State) (r : Request) : Prop :=
  max s.linkLevel.toNat r.rpl.toNat ≤ (s.domainOf r).desc.lookupLevel.toNat

/-- After a search event: the request has left the queue, the Search Engine is EMPTY, the grant is recorded, one response has been sent, and
nothing else has changed but slots, domain records and an ATTN pulse. -/
def State.servedAs (s t : State) (rest : List Request) (answer : Response) : Prop :=
  t = { s with
    queue := rest, holding := false, searchClaim := false, lastGranted := .search
    responses := s.responses ++ [answer], slots := t.slots, domains := t.domains, pulse := t.pulse }

/-- The domain records of all domains but one are unchanged. -/
def State.otherDomainsKept (s t : State) (n : Nat) : Prop := ∀ m, m < 16 → m ≠ n → t.domainAt m = s.domainAt m

/-- Every slot but one is unchanged. -/
def State.otherSlotsKept (s t : State) (i : Nat) : Prop := ∀ j, j ≠ i → t.slotAt j = s.slotAt j

/-- A COMMAND frame is in progress, and the Command Engine is IDLE: the frame's last operand byte is its take (R145). -/
def State.readyToTake (s : State) : Prop := s.engine = .idle ∧ s.frame = .opened .command

/-- The Command Engine is BUSY with a command in flight, and its grant is next. -/
def State.grantsCommand (s : State) (f : InFlight) (c : Command) (p : Progress) : Prop :=
  s.nextGrant = some .command ∧ s.engine = .busy f ∧ f.command = some c ∧ f.progress = p

/-- The command in flight has nothing left but its completion. -/
def State.awaitsCompletion (s : State) (f : InFlight) (c : Command) : Prop :=
  s.engine = .busy f ∧ f.command = some c ∧ f.progress = .complete ∧ f.domain.toNat ≤ 15

/-- After a completion that changes one domain record (one Domain Table event) and nothing else but RESULT and an ATTN pulse: the engine is
IDLE. -/
def State.completedWith (s t : State) (n : Nat) (d : DomainRecord) (r : Result) : Prop :=
  t = { s with engine := .idle, result := r, domains := s.domains.setIfInBounds n d, pulse := t.pulse }

/-- PERIOD1..PERIOD4 (R104). -/
def Descriptor.periods (d : Descriptor) : List Nat := [d.period1.toNat, d.period2.toNat, d.period3.toNat, d.period4.toNat]

/-- The threshold Tn exists (no period up to Pn is 0) and an idle count has reached it (R104). -/
def Descriptor.passes (d : Descriptor) (n idle : Nat) : Prop :=
  (∀ p ∈ d.periods.take n, p ≠ 0) ∧ (d.periods.take n).sum ≤ idle

/-! ### Invariants of the part -/

/-- The link side: at most 8 requests (R70); the claim of the Search Engine waits exactly while it is HOLDING, and it holds the head
(R71); nothing is queued in INIT (R67) or while LINK_RESET is asserted (R82). -/
structure LinkInvariant (s : State) : Prop where
  bound : s.queue.length ≤ 8
  claim : s.searchClaim = s.holding
  head  : s.holding = true → s.queue ≠ []
  init  : s.inInit = true → s.queue = []
  line  : s.linkReset = true → s.queue = []
  valid : ∀ r ∈ s.queue, r.wellFormed = true

/-- The ageing side: the claim waits exactly while a walk is in flight (R101), whose k is 1..3 and next slot 0..1023 (R100); at most 3
ticks wait (R99); an interval of AGE_STEP is in progress exactly outside INIT with AGE_STEP not 0 (R98); in INIT nothing waits (R111). -/
structure AgeingInvariant (s : State) : Prop where
  claim : s.ageingClaim = s.walk.isSome
  walk  : ∀ w, s.walk = some w → 1 ≤ w.k ∧ w.k ≤ 3 ∧ w.next < 1024
  ticks : s.pendingTicks ≤ 3
  timer : s.ageInterval = if s.inInit then none else intervalOf s.ageStep
  init  : s.inInit = true → s.walk = none ∧ s.pendingTicks = 0

/-- Every slot holds a record that the part may hold. -/
def SlotsInvariant (s : State) : Prop := ∀ i, i < 1024 → (s.slotAt i).wellFormed = true

/-- A SET_DESCRIPTOR or a RESTORE that has passed its take checks and waits for the examination of slot `upTo`, or for its completion with
`upTo` 1024: its copy has passed R37 and R38, and every slot below `upTo` that would leave the segments is FREE, unless the command goes
on to be refused with DOMAIN_ON (R39). -/
structure ExaminedUpTo (s : State) (c : Command) (f : InFlight) (upTo : Nat) : Prop where
  domain : f.domain.toNat ≤ 15
  valid  : descriptorValid f.staged.domainWords = true
  apart  : s.overlaps f.domain.toNat (descriptorOf f.staged.domainWords) = false
  free   : ∀ j, j < upTo → j < 1024 →
    leaves (s.domainAt f.domain.toNat).desc (descriptorOf f.staged.domainWords) j = true →
    (s.slotAt j).state = .free ∨
      (c = .setDescriptor ∧ (s.domainAt f.domain.toNat).refusesActive (descriptorOf f.staged.domainWords) = true)
  hidden : c = .restore → (s.domainAt f.domain.toNat).restoring = true

/-- The table: every segment lies in 0..1023 (R25), all thirty-two are pairwise disjoint (R26), and every binding lies in a segment of the
domain it names (R9); with what the commands in flight that could break this have established so far. -/
structure TableInvariant (s : State) : Prop where
  bounds   : ∀ n, n < 16 → (s.domainAt n).desc.active.inBounds = true ∧ (s.domainAt n).desc.standby.inBounds = true
  own      : ∀ n, n < 16 → (s.domainAt n).desc.active.disjoint (s.domainAt n).desc.standby = true
  apart    : ∀ n m, n < 16 → m < 16 → n ≠ m → (s.domainAt n).desc.apart (s.domainAt m).desc = true
  owned    : ∀ i, i < 1024 → (s.slotAt i).state ≠ .free → (s.domainAt (s.slotAt i).domain.toNat).desc.owns i = true
  grant    : ∀ f, s.engine = .busy f → f.progress = .grant → f.domain.toNat ≤ 15 ∧ f.slot.toNat ≤ 1023
  examine  : ∀ f c i, s.engine = .busy f → f.command = some c → c = .setDescriptor ∨ c = .restore → f.progress = .examine i →
    ExaminedUpTo s c f i
  complete : ∀ f c, s.engine = .busy f → f.command = some c → c = .setDescriptor ∨ c = .restore → f.progress = .complete →
    ExaminedUpTo s c f 1024

/-- A domain is RESTORING exactly while a RESTORE of it that passed its take checks is in flight (R33). -/
structure RestoringInvariant (s : State) : Prop where
  inFlight : ∀ f, s.engine = .busy f → f.command = some .restore → f.progress.isRefused = false →
    f.domain.toNat ≤ 15 ∧ (s.domainAt f.domain.toNat).restoring = true
  only     : ∀ n, n < 16 → (s.domainAt n).restoring = true →
    ∃ f, s.engine = .busy f ∧ f.command = some .restore ∧ f.progress.isRefused = false ∧ f.domain.toNat = n

/-- Passes and the Command Engine's claim: the claim waits exactly while the command in flight waits for a grant (R148); a CURSOR stands
within its segment (R164); a visit stands before its segment's end, and before its 64th, and a SCAN retires nothing, so that it ends with
COUNT 0 (R167, R168). -/
structure PassInvariant (s : State) : Prop where
  claim  : s.commandClaim = match s.engine with | .busy f => f.progress.claims | .init | .idle => false
  cursor : ∀ n c, n < 16 → (s.domainAt n).cursor = some c → c.offset ≤ ((s.domainAt n).desc.segment c.segment).size
  visit  : ∀ f o v r, s.engine = .busy f → f.progress = .visit o v r →
    f.domain.toNat ≤ 15 ∧ v < 64 ∧ r ≤ v ∧ (f.command = some .scan → r = 0) ∧
      o < ((s.domainAt f.domain.toNat).desc.segment (criteriaOf f.flags).segment).size
  count  : s.result.count ≤ 64

/-- The whole of INIT: every piece of state stands at its reset value, but for the lines, the frame in progress, STATUS.REFUSED and
STATUS.FRAME_ERROR, and what has been sent; while RESET_N is held the part is in INIT and both those flags are clear (R22, R67, R142,
R177 to R179, R188). -/
structure InitInvariant (s : State) : Prop where
  atReset : s.inInit = true →
    s = { s.fullReset with frame := s.frame, refused := s.refused, frameError := s.frameError }
  held    : s.resetHeld = true → s.inInit = true ∧ s.refused = false ∧ s.frameError = false

/-- A pulse is in progress in PULSE mode alone (R138). -/
def PulseInvariant (s : State) : Prop := s.pulse = true → s.attnMode = .pulse

/-- The balance of a domain's counters (R123). -/
def Counters.balanced (c : Counters) : Prop :=
  c.lookups.toNat = c.hits.toNat + c.heldHits.toNat + c.misses.toNat + c.denied.toNat + c.learned.toNat

/-- No counter of the six is at its top. -/
def Counters.belowTop (c : Counters) : Prop :=
  c.lookups.toNat < top32 ∧ c.hits.toNat < top32 ∧ c.heldHits.toNat < top32 ∧ c.misses.toNat < top32 ∧
    c.denied.toNat < top32 ∧ c.learned.toNat < top32

end Sys2Proof.Machine
end

