-- ==== Sys2Proof/Certificates/Slice0/Obligations.lean ====
section
/-! DEFINITION. The statements for the provers. Each names in its docstring the rules of spec/ it formalises. -/

open Sys2Proof Sys2Proof.Machine

/-! ## The queue of events -/

/-- A step takes the event at the front of the queue and does what that event does with the rest of the queue; on an empty queue the part
idles (the model's choice, log entry 3). -/
def Obligations.StepTakesTheFrontEvent : Prop :=
  (∀ (c : Instr) (rest : List Instr) (s : State), s.pending = c :: rest → step s = exec c { s with pending := rest }) ∧
  (∀ s : State, s.pending = [] → step s = .next s)

/-- No event touches the queue of events, none is ever refused, and one answers a next state exactly where it is due: an event of a line
and a request always is, the completion of a frame's byte where the frame has come to it or its bytes are ignored (R176), and an inner
engine's event where the spec lets it occur (log entry 2: elsewhere it faults under its own name). -/
def Obligations.EventsAnswerExactlyWhereDue : Prop :=
  ∀ (c : Instr) (s : State),
    (∀ t, exec c s = .next t → t.pending = s.pending) ∧ (∀ r, exec c s ≠ .refused r) ∧
      ((∃ t, exec c s = .next t) ↔ due c s = true)

/-! ## Resets and INIT -/

/-- The values after a full reset: R10 (the FREE record, with any GEN), R21, R23 and R44 (Table 2-1, every field), R83, R111, R142, R144,
R178, R180. -/
def Obligations.ResetStateHoldsTheSpecsValues : Prop :=
  (∀ g : Byte, Slot.free g =
    { state := .free, gen := g, domain := 0, addr := ⟨0, 0, 0, 0, 0, 0⟩, addrMask := 0, role := .source, net := none, ports := none
      proto := none, verdict := ⟨.drop, 0, 0, 0⟩, level := .active, idle := 0, pinned := false, learned := false
      readPending := false, frames := 0, octets := 0 }) ∧
  (∀ i, i < 1024 → State.reset.slotAt i = Slot.free 0) ∧
  (∀ n, n < 16 → State.reset.domainAt n =
    { state := .off
      desc := {
        active := ⟨0, 0⟩, standby := ⟨0, 0⟩, lookupLevel := 0, learnLevel := 0, editLevel := 0, learning := false
        autoRetire := false, readClears := false, countStop := false, period1 := 0, period2 := 0, period3 := 0, period4 := 0
        provPeriod := 0, defaultVerdict := ⟨.drop, 0, 0, 0⟩, provVerdict := ⟨.drop, 0, 0, 0⟩, mask := 0xFF#8 }
      sticky := 0, counters := ⟨0, 0, 0, 0, 0, 0, 0, 0⟩, cursor := none, restoring := false }) ∧
  State.reset.lastGranted = .ageing ∧ State.reset.nextGrant = none ∧
  State.reset.queue = [] ∧ State.reset.holding = false ∧ State.reset.linkLevel = 3 ∧
  State.reset.ageStep = 25 ∧ State.reset.pendingTicks = 0 ∧ State.reset.walk = none ∧ State.reset.ageInterval = none ∧
  State.reset.engine = .init ∧ State.reset.refused = false ∧
  State.reset.attnAsserted = false ∧ State.reset.summary = false ∧ State.reset.domainAttention = 0 ∧
  State.reset.register 0x00 = 0x10160001#32 ∧ State.reset.register 0x01 = 0 ∧ State.reset.register 0x02 = 0x00030000#32 ∧
  State.reset.register 0x03 = 0x19#32 ∧ State.reset.register 0x04 = 0 ∧ State.reset.register 0x05 = 7 ∧
  State.reset.register 0x06 = 0 ∧ State.reset.register 0x07 = 0 ∧
  (∀ w i, State.reset.windowWord w i = 0)

/-- Power-on, the assertion of RESET_N and the take of a RESET command with RPL 0 are full resets: everything takes its reset value but
the lines and what has been sent, and a frame in progress is ended with its later bytes ignored (R21, R161, R188). The release of RESET_N
applies no reset value; the clearing completes only while RESET_N is released, and ends INIT: the engine is IDLE, READY is set, and the
age timer starts its first interval (R22, R67, R98). The model's choices, not the spec's: POWER_ON keeps the levels of both lines, and a
second assertion or release of RESET_N does as the first (log entry 6); the logs of what has been sent are kept (log entry 9); the
clearing that is not due answers the fault noClearing (log entry 2). -/
def Obligations.FullResetsAndTheEndOfInit : Prop :=
  ∀ s : State,
    let base : State := { State.reset with
      linkReset := s.linkReset, responses := s.responses, sdoWords := s.sdoWords, pending := s.pending
      frame := if s.frame = .idle then .idle else .ignoring }
    exec .powerOn s = .next { base with resetHeld := s.resetHeld } ∧
    exec .resetNAssert s = .next { base with resetHeld := true } ∧
    (∀ o : Operands, s.readyToTake → o.rpl = 0 →
      exec (.reset o) s = .next { base with resetHeld := s.resetHeld, frame := .ignoring }) ∧
    exec .resetNRelease s = .next { s with resetHeld := false } ∧
    (s.inInit = true → s.resetHeld = false → ∃ t, exec .tableClearingCompletion s = .next t ∧
      t = { s with engine := .idle, ageInterval := (if s.ageStep = 0 then none else some s.ageStep), pulse := t.pulse } ∧
      t.statusWord.getLsbD 7 = true) ∧
    (s.inInit = false ∨ s.resetHeld = true → exec .tableClearingCompletion s = .fault .noClearing)

/-- What each register reads, by the bits of Table 11-2 (R178, R183), an address above 7 reading zero (R177); the words of RESULT, by
Table 11-8 (R186); the words of the five windows, by Table 11-3, zero past the last one and for any other identifier (R179), the staging
windows showing the positions that Tables 11-6 and 11-7 list and zero in every other (R185, section 11.6); and the eight summary words,
with zeros after them (R182). That words 5 to 7 of STAGING_BINDING read zero by the FAMILY code that stands in word 3 at the read is the
model's reading of Table 11-6 (DEDUCED, log entry 20). -/
def Obligations.RegistersWindowsAndSummaryShowTheirOwners : Prop :=
  ∀ s : State,
    let codes : List ResultCode :=
      [.done, .found, .partialPass, .endOfPass, .unknownCommand, .badSlot, .denied, .notInSegment, .stale, .wrongState, .badRecord,
        .occupied, .overlap, .stranded, .domainOn, .staleCursor]
    s.register 0 = 0x10160001#32 ∧
    (s.register 1).toNat = s.pendingTicks % 4 * 2 ^ 8 + (!s.inInit).toNat * 2 ^ 7 +
      (match s.engine with | .init => 0 | .idle => 1 | .busy _ => 2) * 2 ^ 5 + s.refused.toNat * 2 ^ 4 + s.frameError.toNat * 2 ^ 3 +
      s.summary.toNat * 2 ^ 2 + s.walk.isSome.toNat * 2 ^ 1 ∧
    (s.register 2).toNat = s.linkLevel.toNat * 2 ^ 16 + s.summaryStart.toNat * 2 ^ 8 +
      (match s.attnPolarity with | .low => 0 | .high => 1) * 2 ^ 2 + (match s.attnMode with | .level => 0 | .pulse => 1) * 2 ^ 1 +
      s.attnEnable.toNat ∧
    (s.register 3).toNat = s.ageStep.toNat ∧
    (s.register 4).toNat = s.deviceSticky.toNat ∧
    (s.register 5).toNat = s.deviceMask.toNat ∧
    (∀ n, (s.register 6).getLsbD n = (decide (n < 16) && (s.domainAt n).attending)) ∧
    (s.register 7).toNat = s.queue.length % 2 ^ 32 ∧
    (∀ a : Byte, 7 < a.toNat → s.register a = 0) ∧
    (s.windowWord 4 0).toNat = codes.idxOf s.result.code * 2 ^ 24 + s.result.gen.toNat * 2 ^ 16 + s.result.slot % 2 ^ 16 ∧
    (s.windowWord 4 1).toNat = (match s.result.cursor with
      | none => 0
      | some c => 2 ^ 31 + (match c.segment with | .active => 0 | .standby => 1) * 2 ^ 30 + c.offset % 2 ^ 11) ∧
    (s.windowWord 4 2).toNat = s.result.count % 2 ^ 8 ∧
    s.windowWord 4 3 = 0 ∧
    (∀ (i : Nat) (h : i < 16), s.windowWord 2 i = s.bindingView[i] ∧
      s.windowWord 0 i = (if 5 ≤ i ∧ i ≤ 7 ∧ bitsAt s.stagingBinding[3] 8 8 = 0 then 0 else s.stagingBinding[i] &&& bindingPositions[i])) ∧
    (∀ (i : Nat) (h : i < 24), s.windowWord 3 i = s.snapshot[i] ∧ s.windowWord 1 i = (s.stagingDomain[i] &&& domainPositions[i])) ∧
    bindingPositions.toList = [0xFFFFFF03, 0xFF3FFEFF, 0xFFFFFFFF, 0xFFFFFFFF, 0xFFFFFFFF, 0xFFFFFFFF, 0xFFFFFFFF, 0xFFFFFFFF,
      0xFFFFFFFF, 0xFFFFFFFF, 0x0000FFFF, 0xFFFFFFFF, 0x000000FF, 0xFFFFFFFF, 0, 0] ∧
    domainPositions.toList = [0xFF000000, 0x000000FF, 0xFC000FFF, 0xFFFFFFFF, 0xFFFFFFFF, 0xFFFFFFFF, 0xFFFFFFFF, 0xFFFF0000,
      0xFFFFFFFF, 0xFFFFFFFF, 0xFFFFFFFF, 0xFFFFFFFF, 0xFFFFFFFF, 0xFFFFFFFF, 0xFFFFFFFF, 0xFFFFFFFF, 0xFFFFFFFF, 0xFFFFFFFF,
      0, 0, 0, 0, 0, 0] ∧
    (∀ (x : Byte) (i : Nat), (16 ≤ i ∧ (x = 0 ∨ x = 2)) ∨ (24 ≤ i ∧ (x = 1 ∨ x = 3)) ∨ (4 ≤ i ∧ x = 4) ∨ 4 < x.toNat →
      s.windowWord x i = 0) ∧
    s.summaryWord 0 = s.register 1 ∧ s.summaryWord 1 = s.register 6 ∧ s.summaryWord 2 = s.register 4 ∧
    (∀ i, i < 4 → s.summaryWord (i + 3) = s.windowWord 4 i) ∧ s.summaryWord 7 = s.register 7 ∧
    (∀ i, 7 < i → s.summaryWord i = 0)

/-! ## Arrivals -/

/-- R46 and R47: which eight words are a valid request, by the bits of Table 11-9. -/
def Obligations.RequestValidityIsR46 : Prop :=
  ∀ v : RequestWords,
    let kind := v[0].toNat / 2 ^ 30
    let role := v[0].toNat / 2 ^ 12 % 4
    let family := v[0].toNat / 2 ^ 10 % 4
    let hasNet := v[0].toNat / 2 ^ 16 % 2 = 1
    let length := v[3].toNat % 2 ^ 16
    requestValid v = true ↔
      kind ≠ 3 ∧ (kind ≤ 1 → role ≤ 1 ∧ (hasNet → family ≤ 1)) ∧ (kind = 0 → 1 ≤ length ∧ length ≤ 16383)

/-- LINK_RESET discards the queue unanswered, empties the Search Engine, withdraws its claim, so that QUEUE reads 0, and leaves everything
else; its release only releases the line (R81, R82, R19). R66 to R69 and R82: while LINK_RESET is asserted a request is not taken;
otherwise NOT_READY in INIT, then MALFORMED with LINK_ERROR, then BUSY with QUEUE_FULL, then admission at the tail; and nothing else
changes but an ATTN pulse. R71: taking the head answers OFF at once, without a claim, for a domain OFF or RESTORING; otherwise the Search
Engine is HOLDING and its claim waits, and the head stays in the queue. The model's choice, not the spec's: an assertion of LINK_RESET
while it is asserted does as the first, and a release while it is released changes nothing (DESIGN CHOICE, log entry 6). -/
def Obligations.LinkResetArrivalsAndTheHeadOfTheQueue : Prop :=
  (∀ s : State, ∃ t, exec .linkResetAssert s = .next t ∧
    t = { s with linkReset := true, queue := [], holding := false, searchClaim := false } ∧ t.register 7 = 0 ∧
    exec .linkResetRelease s = .next { s with linkReset := false }) ∧
  (∀ (v : RequestWords) (s : State),
    (s.linkReset = true → exec (.requestArrival v) s = .next s) ∧
    (s.linkReset = false → s.inInit = true →
      exec (.requestArrival v) s = .next { s with responses := s.responses ++ [.bare (tagOf v) .notReady] }) ∧
    (s.linkReset = false → s.inInit = false → requestValid v = false →
      ∃ t, exec (.requestArrival v) s = .next t ∧
        t = { s with
          deviceSticky := s.deviceSticky ||| 2, responses := s.responses ++ [.bare (tagOf v) .malformed], pulse := t.pulse }) ∧
    (s.linkReset = false → s.inInit = false → requestValid v = true → 8 ≤ s.queue.length →
      ∃ t, exec (.requestArrival v) s = .next t ∧
        t = { s with
          deviceSticky := s.deviceSticky ||| 1, responses := s.responses ++ [.bare (tagOf v) .busy], pulse := t.pulse }) ∧
    (s.linkReset = false → s.inInit = false → requestValid v = true → s.queue.length < 8 →
      exec (.requestArrival v) s = .next { s with queue := s.queue ++ [requestOf v] })) ∧
  (∀ (s : State) (r : Request) (rest : List Request), s.holding = false → s.queue = r :: rest →
    ((s.domainOf r).state = .off ∨ (s.domainOf r).restoring = true →
      exec .takeHead s = .next { s with queue := rest, responses := s.responses ++ [.bare r.tag .off] }) ∧
    ((s.domainOf r).inService → exec .takeHead s = .next { s with holding := true, searchClaim := true }))

/-! ## Matching -/

/-- R50 to R54: the five tests of a binding against a request's key. -/
def Obligations.KeyTestsFollowTheTables : Prop :=
  (∀ b k : Role, k ≠ .either → (roleTest b k = true ↔ b = .either ∨ b = k)) ∧
  (∀ (mask : BitVec 6) (b k : Addr), addrTest mask b k = true ↔
    (mask.getLsbD 5 = true → b.a0 = k.a0) ∧ (mask.getLsbD 4 = true → b.a1 = k.a1) ∧ (mask.getLsbD 3 = true → b.a2 = k.a2) ∧
    (mask.getLsbD 2 = true → b.a3 = k.a3) ∧ (mask.getLsbD 1 = true → b.a4 = k.a4) ∧ (mask.getLsbD 0 = true → b.a5 = k.a5)) ∧
  (∀ k, netTest none k = true) ∧
  (∀ n, netTest (some n) none = false) ∧
  (∀ x p inv y, netTest (some ⟨.v4 x, p, inv⟩) (some (.v6 y)) = false) ∧
  (∀ x p inv y, netTest (some ⟨.v6 x, p, inv⟩) (some (.v4 y)) = false) ∧
  (∀ (x y : BitVec 32) (p : Byte) inv, p.toNat ≤ 32 → (netTest (some ⟨.v4 x, p, inv⟩) (some (.v4 y)) = true ↔
    ((∀ j, j < p.toNat → x.getMsbD j = y.getMsbD j) ↔ inv = false))) ∧
  (∀ (x y : BitVec 128) (p : Byte) inv, p.toNat ≤ 128 → (netTest (some ⟨.v6 x, p, inv⟩) (some (.v6 y)) = true ↔
    ((∀ j, j < p.toNat → x.getMsbD j = y.getMsbD j) ↔ inv = false))) ∧
  (∀ k, portTest none k = true) ∧ (∀ p, portTest (some p) none = false) ∧
  (∀ p q, portTest (some p) (some q) = true ↔ p.lo.toNat ≤ q.toNat ∧ q.toNat ≤ p.hi.toNat) ∧
  (∀ k, protoTest none k = true) ∧ (∀ p, protoTest (some p) none = false) ∧
  (∀ p q, protoTest (some p) (some q) = true ↔ p = q)

/-- R55: a binding matches exactly when its five tests pass. R56 and R57: the search finds the lowest-indexed slot of the segment that is
not FREE and matches, and finds none exactly when there is none. R85: the choice of a slot for learning is the lowest-indexed FREE one. -/
def Obligations.SearchFindsTheLowestMatch : Prop :=
  ∀ (s : State) (g : Segment) (k : Key),
    (∀ r : Slot, keyMatches r k = true ↔ roleTest r.role k.role = true ∧ addrTest r.addrMask r.addr k.addr = true ∧
      netTest r.net k.net = true ∧ portTest r.ports k.port = true ∧ protoTest r.proto k.proto = true) ∧
    (∀ i, s.search g k = some i ↔
      g.has i = true ∧ (s.slotAt i).state ≠ .free ∧ keyMatches (s.slotAt i) k = true ∧
        ∀ j, g.has j = true → j < i → (s.slotAt j).state = .free ∨ keyMatches (s.slotAt j) k = false) ∧
    (∀ i, s.firstFree g = some i ↔
      g.has i = true ∧ (s.slotAt i).state = .free ∧ ∀ j, g.has j = true → j < i → (s.slotAt j).state ≠ .free)

/-! ## Search events -/

/-- R17: a request of any KIND whose domain is OFF or RESTORING at its grant is answered OFF; the grant is used, and no slot, counter or
condition changes. -/
def Obligations.OffAtTheGrantChangesNothing : Prop :=
  ∀ (s : State) (r : Request) (rest : List Request), s.serves r rest →
    (s.domainOf r).state = .off ∨ (s.domainOf r).restoring = true →
    exec r.question.row s = .next { s with
      queue := rest, holding := false, searchClaim := false, lastGranted := .search
      responses := s.responses ++ [.bare r.tag .off] }

/-- R72 step 3 and R31: a LOOKUP above LOOKUP_LEVEL increments LOOKUPS and DENIED, raises DENIED, searches nothing, changes no slot, and
is answered by the outcome rule. -/
def Obligations.LookupAboveItsLevelIsDenied : Prop :=
  ∀ (s : State) (r : Request) (rest : List Request) (learn : Bool) (k : Key) (length : BitVec 16),
    s.serves r rest → r.question = .lookup learn k length → (s.domainOf r).inService → ¬ s.admits r →
    ∃ t, exec .lookupSearchEvent s = .next t ∧
      s.servedAs t rest
        { tag := r.tag, condition := some .denied, handle := none
          outcome := if inSet (s.domainOf r).desc.mask .denied then .defaulted else .fault
          verdict := if inSet (s.domainOf r).desc.mask .denied then some (s.domainOf r).desc.defaultVerdict else none } ∧
      t.slots = s.slots ∧
      t.domainAt r.domain.toNat = (((s.domainOf r).count .lookups).count .denied).raise .denied ∧
      s.otherDomainsKept t r.domain.toNat

/-- R73, R74, R113, R114: a LOOKUP whose first match is LIVE or PROVISIONAL is answered HIT or PROVISIONAL with the slot's handle and
VERDICT; HITS is incremented; the hit is counted on the slot, which is refreshed, and no other slot changes. -/
def Obligations.LookupHitIsCountedAndAnswered : Prop :=
  ∀ (s : State) (r : Request) (rest : List Request) (learn : Bool) (k : Key) (length : BitVec 16) (i : Nat),
    s.serves r rest → r.question = .lookup learn k length → (s.domainOf r).inService → s.admits r →
    (s.domainOf r).desc.active.inBounds = true → s.search (s.domainOf r).desc.active k = some i →
    (s.slotAt i).state = .live ∨ (s.slotAt i).state = .provisional →
    ∃ t, exec .lookupSearchEvent s = .next t ∧
      s.servedAs t rest
        { tag := r.tag, condition := none
          outcome := if (s.slotAt i).state = .live then .hit else .provisional
          handle := some { slot := i, gen := (s.slotAt i).gen }, verdict := some (s.slotAt i).verdict } ∧
      t.slotAt i = { s.slotAt i with
        frames := countedValue (s.domainOf r).desc.countStop (s.slotAt i).frames
        octets := octetsAfter (s.domainOf r).desc.countStop (s.slotAt i).octets length
        readPending := true, idle := 0, level := .active } ∧
      s.otherSlotsKept t i ∧
      t.domainAt r.domain.toNat = (((s.domainOf r).count .lookups).count .hits).raiseIf
        (hitWraps (s.domainOf r).desc.countStop length (s.slotAt i)) .wrap ∧
      s.otherDomainsKept t r.domain.toNat

/-- R73, R74: a LOOKUP whose first match is HELD raises HELD, increments HELD_HITS, counts and refreshes the slot, and is answered by the
outcome rule with the slot's handle. -/
def Obligations.LookupOnHeldRaisesHeld : Prop :=
  ∀ (s : State) (r : Request) (rest : List Request) (learn : Bool) (k : Key) (length : BitVec 16) (i : Nat),
    s.serves r rest → r.question = .lookup learn k length → (s.domainOf r).inService → s.admits r →
    (s.domainOf r).desc.active.inBounds = true → s.search (s.domainOf r).desc.active k = some i →
    (s.slotAt i).state = .held →
    ∃ t, exec .lookupSearchEvent s = .next t ∧
      s.servedAs t rest
        { tag := r.tag, condition := some .held
          outcome := if inSet (s.domainOf r).desc.mask .held then .defaulted else .fault
          handle := some { slot := i, gen := (s.slotAt i).gen }
          verdict := if inSet (s.domainOf r).desc.mask .held then some (s.domainOf r).desc.defaultVerdict else none } ∧
      t.slotAt i = { s.slotAt i with
        frames := countedValue (s.domainOf r).desc.countStop (s.slotAt i).frames
        octets := octetsAfter (s.domainOf r).desc.countStop (s.slotAt i).octets length
        readPending := true, idle := 0, level := .active } ∧
      s.otherSlotsKept t i ∧
      t.domainAt r.domain.toNat = ((((s.domainOf r).count .lookups).count .heldHits).raise .held).raiseIf
        (hitWraps (s.domainOf r).desc.countStop length (s.slotAt i)) .wrap ∧
      s.otherDomainsKept t r.domain.toNat

/-- R84 to R87: a LOOKUP with LEARN that matches nothing, in an ON domain with LEARNING yes and the effective level at or below
LEARN_LEVEL, writes the record of Table 5-1 into the lowest FREE slot of the active segment, increments LOOKUPS and LEARNED, and is
answered LEARNED. -/
def Obligations.LookupLearnsTheRecordOfTable51 : Prop :=
  ∀ (s : State) (r : Request) (rest : List Request) (k : Key) (length : BitVec 16) (i : Nat),
    s.serves r rest → r.question = .lookup true k length → (s.domainOf r).inService → s.admits r →
    (s.domainOf r).desc.active.inBounds = true → s.search (s.domainOf r).desc.active k = none →
    (s.domainOf r).state = .on → (s.domainOf r).desc.learning = true →
    max s.linkLevel.toNat r.rpl.toNat ≤ (s.domainOf r).desc.learnLevel.toNat →
    s.firstFree (s.domainOf r).desc.active = some i →
    ∃ t, exec .lookupSearchEvent s = .next t ∧
      s.servedAs t rest
        { tag := r.tag, condition := none, outcome := .learned
          handle := some { slot := i, gen := (s.slotAt i).gen + 1 }, verdict := some (s.domainOf r).desc.provVerdict } ∧
      t.slotAt i =
        { state := .provisional, gen := (s.slotAt i).gen + 1, domain := r.domain, addr := k.addr, addrMask := 0x3F, role := k.role
          net := match k.net with
            | some (.v4 a) => some { address := .v4 a, pre := 32, invert := false }
            | some (.v6 a) => some { address := .v6 a, pre := 128, invert := false }
            | none => none
          ports := none, proto := none, verdict := (s.domainOf r).desc.provVerdict, level := .active, idle := 0
          pinned := false, learned := true, readPending := true, frames := 1, octets := length.setWidth 40 } ∧
      s.otherSlotsKept t i ∧
      t.domainAt r.domain.toNat = ((s.domainOf r).count .lookups).count .learned ∧
      s.otherDomainsKept t r.domain.toNat

/-- R75 and R88: a LOOKUP that matches nothing and learns nothing changes no slot and increments LOOKUPS and MISSES. When a learning
attempt found no FREE slot it raises FULL and MISS; when none was made (LEARN no, STATE not ON, LEARNING no, or above LEARN_LEVEL) it
raises MISS alone. The four settings of the two masks give R88's table. -/
def Obligations.LookupMissRaisesMissAndFullOnlyAfterAnAttempt : Prop :=
  ∀ (s : State) (r : Request) (rest : List Request) (learn : Bool) (k : Key) (length : BitVec 16),
    s.serves r rest → r.question = .lookup learn k length → (s.domainOf r).inService → s.admits r →
    s.search (s.domainOf r).desc.active k = none →
    let d := s.domainOf r
    let attempt := learn = true ∧ d.state = .on ∧ d.desc.learning = true ∧
      max s.linkLevel.toNat r.rpl.toNat ≤ d.desc.learnLevel.toNat
    let answer (o : LinkOutcome) (c : Condition) : Response :=
      { tag := r.tag, outcome := o, condition := some c, handle := none
        verdict := if o = .defaulted then some d.desc.defaultVerdict else none }
    (¬ attempt → ∃ t, exec .lookupSearchEvent s = .next t ∧
      s.servedAs t rest (answer (if inSet d.desc.mask .miss then .defaulted else .fault) .miss) ∧ t.slots = s.slots ∧
      t.domainAt r.domain.toNat = ((d.count .lookups).count .misses).raise .miss ∧ s.otherDomainsKept t r.domain.toNat) ∧
    (attempt → s.firstFree d.desc.active = none → ∃ t, exec .lookupSearchEvent s = .next t ∧
      s.servedAs t rest
        (if inSet d.desc.mask .full = false then answer .fault .full
         else if inSet d.desc.mask .miss = false then answer .fault .miss
         else answer .defaulted .full) ∧ t.slots = s.slots ∧
      t.domainAt r.domain.toNat = (((d.count .lookups).count .misses).raise .full).raise .miss ∧
      s.otherDomainsKept t r.domain.toNat)

/-- R77: a PROBE of a domain in service changes no slot, no domain record and no condition; it is answered NO_ACCESS above LOOKUP_LEVEL,
by the state of the first match with its handle and VERDICT, or NONE. -/
def Obligations.ProbeChangesNothing : Prop :=
  ∀ (s : State) (r : Request) (rest : List Request) (k : Key),
    s.serves r rest → r.question = .probe k → (s.domainOf r).inService →
    let found (o : LinkOutcome) (i : Nat) : Response :=
      { tag := r.tag, outcome := o, condition := none, handle := some { slot := i, gen := (s.slotAt i).gen }
        verdict := some (s.slotAt i).verdict }
    let answered (a : Response) : Prop := exec .probeSearchEvent s = .next { s with
      queue := rest, holding := false, searchClaim := false, lastGranted := .search, responses := s.responses ++ [a] }
    (¬ s.admits r → answered (.bare r.tag .noAccess)) ∧
    (s.admits r → s.search (s.domainOf r).desc.active k = none → answered (.bare r.tag .none)) ∧
    (∀ i, s.admits r → s.search (s.domainOf r).desc.active k = some i →
      ((s.slotAt i).state = .live → answered (found .hit i)) ∧
      ((s.slotAt i).state = .provisional → answered (found .provisional i)) ∧
      ((s.slotAt i).state = .held → answered (found .held i)))

/-- R78 and R79: a TOUCH of a domain in service increments TOUCHES. Above LOOKUP_LEVEL it raises DENIED without the DENIED counter; with a
handle that names a binding of the active segment it refreshes that binding and nothing else of it; otherwise it raises STALE. It carries
no VERDICT, and a handle only when TOUCHED. -/
def Obligations.TouchRefreshesOrRaises : Prop :=
  ∀ (s : State) (r : Request) (rest : List Request) (i : BitVec 10) (gen : Byte),
    s.serves r rest → r.question = .touch i gen → (s.domainOf r).inService →
    let d := s.domainOf r
    let names := d.desc.active.has i.toNat = true ∧ (s.slotAt i.toNat).state ≠ .free ∧ (s.slotAt i.toNat).gen = gen
    let raised (c : Condition) : Response :=
      { tag := r.tag, outcome := if inSet d.desc.mask c then .defaulted else .fault, condition := some c, handle := none
        verdict := none }
    (¬ s.admits r → ∃ t, exec .touchSearchEvent s = .next t ∧ s.servedAs t rest (raised .denied) ∧ t.slots = s.slots ∧
      t.domainAt r.domain.toNat = (d.count .touches).raise .denied ∧ s.otherDomainsKept t r.domain.toNat) ∧
    (s.admits r → names → ∃ t, exec .touchSearchEvent s = .next t ∧
      s.servedAs t rest
        { tag := r.tag, outcome := .touched, condition := none, handle := some { slot := i.toNat, gen := gen }, verdict := none } ∧
      t.slotAt i.toNat = { s.slotAt i.toNat with idle := 0, level := .active } ∧ s.otherSlotsKept t i.toNat ∧
      t.domainAt r.domain.toNat = d.count .touches ∧ s.otherDomainsKept t r.domain.toNat) ∧
    (s.admits r → ¬ names → ∃ t, exec .touchSearchEvent s = .next t ∧ s.servedAs t rest (raised .stale) ∧ t.slots = s.slots ∧
      t.domainAt r.domain.toNat = (d.count .touches).raise .stale ∧ s.otherDomainsKept t r.domain.toNat)

/-- R80: a response that carries a handle, sent by a search event, names a slot that at that event was not FREE (or was filled by it), lay
in the active segment of the request's domain, and has that generation after the event. -/
def Obligations.HandlesInResponsesNameBindings : Prop :=
  ∀ (s t : State) (r : Request) (rest : List Request) (a : Response) (h : Handle),
    s.serves r rest → (s.domainOf r).desc.active.inBounds = true → exec r.question.row s = .next t →
    t.responses = s.responses ++ [a] → a.handle = some h →
    (s.domainOf r).desc.active.has h.slot = true ∧ (t.slotAt h.slot).state ≠ .free ∧ (t.slotAt h.slot).gen = h.gen ∧
      a.tag = r.tag

/-! ## Conditions and counters -/

/-- R130: over the lookup-deciding conditions raised, FAULT with the first unmasked one in the order DENIED, STALE, HELD, FULL, MISS, or,
all of them masked, DEFAULTED with the first. -/
def Obligations.OutcomeRuleReportsTheFirstCondition : Prop :=
  ∀ (raised : List Condition) (mask : BitVec 8) (c : Condition),
    (outcomeRule raised mask = (.fault, some c) ↔
      c ∈ raised ∧ c ∈ conditionOrder ∧ inSet mask c = false ∧
        ∀ e ∈ raised, e ∈ conditionOrder → conditionOrder.idxOf e < conditionOrder.idxOf c → inSet mask e = true) ∧
    (outcomeRule raised mask = (.defaulted, some c) ↔
      c ∈ raised ∧ c ∈ conditionOrder ∧ (∀ e ∈ raised, e ∈ conditionOrder → inSet mask e = true) ∧
        ∀ e ∈ raised, e ∈ conditionOrder → conditionOrder.idxOf c ≤ conditionOrder.idxOf e) ∧
    (∀ e ∈ raised, e ∈ conditionOrder → (outcomeRule raised mask).2 ≠ none) ∧
    conditionOrder = [.denied, .stale, .held, .full, .miss]

/-- R121: one increment of a domain counter, by its value before it and COUNT_STOP: the new value, and which of HALF and WRAP join STICKY;
the other seven counters, the descriptor, STATE, CURSOR and RESTORING are kept. R113 and R114: FRAMES and OCTETS at a counted hit, by
their values before it and COUNT_STOP, and when the hit raises WRAP. -/
def Obligations.CountersIncrementAndRaise : Prop :=
  (∀ (d : DomainRecord) (n : Counter),
    let v := (d.counters.get n).toNat
    let e := d.count n
    ((e.counters.get n).toNat =
      if v = 2 ^ 32 - 1 then (if d.desc.countStop then 2 ^ 32 - 1 else 0) else v + 1) ∧
    (e.sticky = d.sticky ||| (if v = 2 ^ 31 - 1 then 0x04#8 else 0) |||
      (if v = 2 ^ 32 - 2 ∨ (v = 2 ^ 32 - 1 ∧ d.desc.countStop = true) then 0x02#8 else 0)) ∧
    (∀ m, m ≠ n → e.counters.get m = d.counters.get m) ∧
    e.desc = d.desc ∧ e.state = d.state ∧ e.cursor = d.cursor ∧ e.restoring = d.restoring) ∧
  (∀ (stop : Bool) (length : BitVec 16) (r : Slot),
    let f := r.frames.toNat
    let sum := r.octets.toNat + length.toNat
    (countedValue stop r.frames).toNat = (if f = 2 ^ 32 - 1 then (if stop then 2 ^ 32 - 1 else 0) else f + 1) ∧
    (octetsAfter stop r.octets length).toNat =
      (if sum < 2 ^ 40 - 1 then sum else if stop then 2 ^ 40 - 1 else sum % 2 ^ 40) ∧
    (hitWraps stop length r = true ↔
      f = 2 ^ 32 - 2 ∨ (f = 2 ^ 32 - 1 ∧ stop = true) ∨ 2 ^ 40 - 1 ≤ sum))

/-- R123: while no counter of the six is at its top, every event keeps a domain's counters in balance, but for the two that load counters:
the completion of a COUNTERS with PRESET and that of a RESTORE. -/
def Obligations.CountersStayInBalance : Prop :=
  ∀ (c : Instr) (s t : State) (n : Nat), n < 16 → exec c s = .next t →
    (s.domainAt n).counters.balanced → (s.domainAt n).counters.belowTop → c ≠ .restoreCompletion →
    (∀ f, c = .commandCompletion → s.engine = .busy f → f.command = some .counters → flag0 f.flags = false → flag1 f.flags = false) →
    (t.domainAt n).counters.balanced

/-! ## The Table Arbiter -/

/-- R16 and Table 1-4: the next grant goes to the first waiting claim in the cycle Search, Command, Ageing from the requester after the
last granted one; no claim waiting, nothing is granted. R18: a grant event is taken only at its requester's grant, and sets LAST_GRANTED
to it whatever its result; no event but a grant or a full reset changes LAST_GRANTED (R19, R21). -/
def Obligations.GrantsFollowTheCycle : Prop :=
  (∀ s : State,
    let se := s.searchClaim = true
    let co := s.commandClaim = true
    let ag := s.ageingClaim = true
    (s.nextGrant = none ↔ ¬ se ∧ ¬ co ∧ ¬ ag) ∧
    (s.nextGrant = some .search ↔ se ∧
      ((s.lastGranted = .search ∧ ¬ co ∧ ¬ ag) ∨ (s.lastGranted = .command ∧ ¬ ag) ∨ s.lastGranted = .ageing)) ∧
    (s.nextGrant = some .command ↔ co ∧
      (s.lastGranted = .search ∨ (s.lastGranted = .command ∧ ¬ ag ∧ ¬ se) ∨ (s.lastGranted = .ageing ∧ ¬ se))) ∧
    (s.nextGrant = some .ageing ↔ ag ∧
      ((s.lastGranted = .search ∧ ¬ co) ∨ s.lastGranted = .command ∨ (s.lastGranted = .ageing ∧ ¬ se ∧ ¬ co)))) ∧
  (∀ (c : Instr) (s t : State), exec c s = .next t →
    (c ∈ [.lookupSearchEvent, .probeSearchEvent, .touchSearchEvent] →
      s.nextGrant = some .search ∧ t.lastGranted = .search) ∧
    (c ∈ [.commandGrant, .passVisit, .descriptorExaminationGrant, .restoreExaminationGrant] →
      s.nextGrant = some .command ∧ t.lastGranted = .command) ∧
    (c = .walkStep → s.nextGrant = some .ageing ∧ t.lastGranted = .ageing) ∧
    (t.lastGranted ≠ s.lastGranted →
      c ∈ [.lookupSearchEvent, .probeSearchEvent, .touchSearchEvent, .commandGrant, .passVisit, .descriptorExaminationGrant,
        .restoreExaminationGrant, .walkStep, .powerOn, .resetNAssert] ∨ (∃ o, c = .reset o) ∨ ∃ w o, c = .unknownCommand w o))

/-! ## Ageing -/

/-- R98 and R99: an expiry of the running timer adds a pending tick, or, when three wait, loses it and raises AGE_OVERRUN; either way the
next interval starts. R100: a walk starts when none is in flight, ticks are pending and the part is not in INIT; it takes all the pending
ticks as its k, and claims the step on slot 0. A timer that does not run has no expiry, and a walk that may not start has no start: there
the model answers the faults timerStopped and walkNotDue (the model's, DEDUCED, log entry 2). -/
def Obligations.TicksAreCountedAndTakenByAWalk : Prop :=
  ∀ s : State,
    (s.ageInterval.isSome = true → s.pendingTicks < 3 →
      exec .ageTimerExpiry s = .next { s with
        pendingTicks := s.pendingTicks + 1, ageInterval := if s.ageStep = 0 then none else some s.ageStep }) ∧
    (s.ageInterval.isSome = true → 3 ≤ s.pendingTicks → ∃ t, exec .ageTimerExpiry s = .next t ∧
      t = { s with
        deviceSticky := s.deviceSticky ||| 4, pulse := t.pulse
        ageInterval := if s.ageStep = 0 then none else some s.ageStep }) ∧
    (s.ageInterval = none → exec .ageTimerExpiry s = .fault .timerStopped) ∧
    (s.walk = none → 0 < s.pendingTicks → s.inInit = false →
      exec .walkStart s = .next { s with
        walk := some { k := s.pendingTicks, next := 0 }, pendingTicks := 0, ageingClaim := true }) ∧
    (s.walk ≠ none ∨ s.pendingTicks = 0 ∨ s.inInit = true → exec .walkStart s = .fault .walkNotDue)

/-- R101, R102, R106: at its grant a walk steps its next slot. A step that does not act changes nothing; one that acts writes the slot's
aged record, or, retired by ageing, makes it FREE with its GEN kept, increments AGED and raises AGED. Then the walk claims the slot after,
or ends. -/
def Obligations.WalkStepActsUnderR102Alone : Prop :=
  ∀ (s : State) (w : Walk), s.nextGrant = some .ageing → s.walk = some w → w.next < 1024 →
    let i := w.next
    let r := s.slotAt i
    let n := r.domain.toNat
    let d := s.domainAt n
    let acts := r.state ≠ .free ∧ d.state = .on ∧ d.restoring = false ∧ d.desc.active.has i = true ∧ r.pinned = false
    let walked : State := { s with
      lastGranted := .ageing, ageingClaim := decide (i < 1023)
      walk := if i < 1023 then some { k := w.k, next := i + 1 } else none }
    (¬ acts → exec .walkStep s = .next walked) ∧
    (acts → ∀ r', ageBinding d.desc w.k r = some r' →
      exec .walkStep s = .next { walked with slots := s.slots.setIfInBounds i r' }) ∧
    (acts → ageBinding d.desc w.k r = none → ∃ t, exec .walkStep s = .next t ∧
      t = { walked with
        slots := s.slots.setIfInBounds i (Slot.free r.gen)
        domains := s.domains.setIfInBounds n ((d.count .aged).raise .aged), pulse := t.pulse })

/-- R103: a step that acts raises IDLE by k, to at most 65535. A PROVISIONAL binding is retired exactly when PROV_PERIOD is not 0 and the
new IDLE is at or above it; otherwise nothing else of it changes. R104 and R105, for a LIVE or HELD one: the reached level is the deepest
whose threshold exists and is reached by the new IDLE; LEVEL becomes the deeper of it and the present one; a binding then at REST3 is
retired exactly when T4 exists and is reached and AUTO_RETIRE is yes. -/
def Obligations.BindingsAgeThroughTheThresholds : Prop :=
  ∀ (d : Descriptor) (k : Nat) (r : Slot),
    let idle := min (r.idle.toNat + k) 65535
    (r.state = .provisional →
      (d.provPeriod.toNat ≠ 0 ∧ d.provPeriod.toNat ≤ idle → ageBinding d k r = none) ∧
      (¬ (d.provPeriod.toNat ≠ 0 ∧ d.provPeriod.toNat ≤ idle) →
        ageBinding d k r = some { r with idle := BitVec.ofNat 16 idle })) ∧
    (d.passes 3 idle → d.reachedLevel idle = .rest3) ∧
    (¬ d.passes 3 idle → d.passes 2 idle → d.reachedLevel idle = .rest2) ∧
    (¬ d.passes 3 idle → ¬ d.passes 2 idle → d.passes 1 idle → d.reachedLevel idle = .rest1) ∧
    (¬ d.passes 3 idle → ¬ d.passes 2 idle → ¬ d.passes 1 idle → d.reachedLevel idle = .active) ∧
    (r.level.deeper (d.reachedLevel idle)).depth = max r.level.depth (d.reachedLevel idle).depth ∧
    (r.state = .live ∨ r.state = .held →
      let level := r.level.deeper (d.reachedLevel idle)
      (level = .rest3 ∧ d.passes 4 idle ∧ d.autoRetire = true → ageBinding d k r = none) ∧
      (¬ (level = .rest3 ∧ d.passes 4 idle ∧ d.autoRetire = true) →
        ageBinding d k r = some { r with idle := BitVec.ofNat 16 idle, level := level }))

/-! ## COMMAND frames -/

/-- R146 and R188: every COMMAND frame, a named command's or an unknown opcode's, is refused while the engine is BUSY or in INIT: REFUSED
is set (left as it stands while RESET_N is held in INIT), and nothing else changes but that the rest of the frame is ignored. Where the
bytes of the frame in progress are ignored, after a full reset among others, its operand bytes change nothing in any engine state (R176,
R188). -/
def Obligations.CommandFramesAreRefusedInInitAndBusy : Prop :=
  ∀ (o : Operands) (s : State) (i : Instr), (∃ c, i = .ofCommand o c) ∨ (∃ w, i = .unknownCommand w o) →
    (s.frame = .opened .command → s.inInit = true →
      exec i s = .next { s with refused := s.refused || !s.resetHeld, frame := .ignoring }) ∧
    (∀ f, s.frame = .opened .command → s.engine = .busy f → exec i s = .next { s with refused := true, frame := .ignoring }) ∧
    (s.frame = .ignoring → exec i s = .next s)

/-- R145, R151 and Table 9-3: taken in IDLE, a command other than a RESET with effective level 0 makes the engine BUSY with its operands
and the effective level of its RPL byte, clears REFUSED, and copies the staging window it uses; nothing else changes but its claim and,
for a RESTORE, its domain's RESTORING and an ATTN pulse. R152: a one-slot command that passes its take checks waits for the grant of its
one claim. -/
def Obligations.TakeWritesTheCommandInFlight : Prop :=
  ∀ (o : Operands) (s : State) (c : Command), s.readyToTake → c ≠ .reset ∨ o.rpl ≠ 0 →
    ∃ t f, exec (.ofCommand o c) s = .next t ∧ t.engine = .busy f ∧ t.refused = false ∧ t.frame = .ignoring ∧
      f.command = some c ∧ f.level.toNat = min o.rpl.toNat 3 ∧ f.domain = o.domain ∧ f.slot = o.slot ∧ f.gen = o.gen ∧
      f.flags = o.flags ∧ f.value = o.value ∧
      f.staged = (if c = .writeSlot ∨ c = .setVerdict ∨ (c = .confirm ∧ flag0 o.flags = true) then .binding s.stagingBinding
        else if c = .setDescriptor ∨ c = .restore then .domain s.stagingDomain else .absent) ∧
      t.commandClaim = f.progress.claims ∧
      t = { s with
        engine := t.engine, refused := t.refused, frame := t.frame, commandClaim := t.commandClaim
        domains := t.domains, pulse := t.pulse } ∧
      (c ≠ .restore → t.domains = s.domains ∧ t.pulse = s.pulse) ∧
      s.otherDomainsKept t o.domain.toNat ∧
      (c ∈ slotCommands → o.slot.toNat ≤ 1023 → o.domain.toNat ≤ 15 →
        min o.rpl.toNat 3 ≤ (s.domainAt o.domain.toNat).desc.needs c → f.progress = .grant)

/-- R151 and R166 to R173's first checks: at the take, a frame whose opcode names no command, a slot operand above 1023, a domain operand
above 15 or an effective level above the one needed end the command with UNKNOWN_COMMAND, BAD_SLOT or DENIED, in that order: it places no
claim, changes nothing, and waits only for its completion. RESET uses no domain operand. R30 and Table 9-3: READ_SLOT and SCAN need
LOOKUP_LEVEL, the eight slot-edit commands and SWEEP need EDIT_LEVEL, every other command needs level 0, and the nine one-slot commands
alone use a slot operand. -/
def Obligations.TakeChecksRefuseInOrder : Prop :=
  ∀ (o : Operands) (s : State), s.readyToTake →
    let d := (s.domainAt o.domain.toNat).desc
    let level := min o.rpl.toNat 3
    let ends (i : Instr) (code : ResultCode) : Prop :=
      ∃ t f, exec i s = .next t ∧ t.engine = .busy f ∧ f.progress = .refused code ∧
        t = { s with engine := .busy f, refused := false, frame := .ignoring, commandClaim := false }
    (∀ w, commandOfOpcode w = none → ends (.unknownCommand w o) .unknownCommand) ∧
    (o.rpl ≠ 0 → ends (.reset o) .denied) ∧
    (∀ c ∈ [Command.writeSlot, .setVerdict, .hold, .release, .confirm, .pin, .unpin, .retire, .readSlot],
      1023 < o.slot.toNat → ends (.ofCommand o c) .badSlot) ∧
    (∀ c, c ≠ .reset →
      c ∉ [Command.writeSlot, .setVerdict, .hold, .release, .confirm, .pin, .unpin, .retire, .readSlot] ∨ o.slot.toNat ≤ 1023 →
      (15 < o.domain.toNat → ends (.ofCommand o c) .denied) ∧
      (o.domain.toNat ≤ 15 →
        (c = .readSlot ∨ c = .scan → d.lookupLevel.toNat < level → ends (.ofCommand o c) .denied) ∧
        (c ∈ [Command.writeSlot, .setVerdict, .hold, .release, .confirm, .pin, .unpin, .retire, .sweep] →
          d.editLevel.toNat < level → ends (.ofCommand o c) .denied) ∧
        (c ∈ [Command.setDescriptor, .exchange, .setState, .snapshot, .restore, .counters, .clearConditions] →
          0 < level → ends (.ofCommand o c) .denied))) ∧
    (∀ c, c ≠ .reset → c ∉ [Command.writeSlot, .setVerdict, .hold, .release, .confirm, .pin, .unpin, .retire, .readSlot] ∨
        o.slot.toNat ≤ 1023 → o.domain.toNat ≤ 15 → level ≤ d.needs c →
      ∃ t f, exec (.ofCommand o c) s = .next t ∧ t.engine = .busy f ∧
        f.progress ≠ .refused .unknownCommand ∧ f.progress ≠ .refused .badSlot ∧ f.progress ≠ .refused .denied)

/-- R165 and R166: at the take of a SCAN or SWEEP that is not DENIED, criteria whose LEARNED or READ_PENDING code is 3 give BAD_RECORD,
and no others do; without RESTART an absent CURSOR, or one in a segment other than the SEGMENT criterion, gives STALE_CURSOR; otherwise
the issue starts at offset 0 or at CURSOR's, and claims its first visit unless it stands at the segment's end. The bits of the flags
operand are those of Table 11-5. That a start above the segment's size, which R164 and StepKeepsThePassInvariant rule out, makes no visit
either is the model's (DEDUCED, log entry 16). -/
def Obligations.PassesStartAtTheirOffset : Prop :=
  ∀ (o : Operands) (s : State) (c : Command), s.readyToTake → c = .scan ∨ c = .sweep → o.domain.toNat ≤ 15 →
    min o.rpl.toNat 3 ≤ (if c = .scan then (s.domainAt o.domain.toNat).desc.lookupLevel.toNat
      else (s.domainAt o.domain.toNat).desc.editLevel.toNat) →
    let d := s.domainAt o.domain.toNat
    let bad := bitsAt o.flags 8 2 = 3 ∨ bitsAt o.flags 10 2 = 3
    let restart := bitsAt o.flags 0 1 = 1
    let name : SegmentName := if bitsAt o.flags 1 1 = 1 then .standby else .active
    let seg := if bitsAt o.flags 1 1 = 1 then d.desc.standby else d.desc.active
    ∃ t f, exec (.ofCommand o c) s = .next t ∧ t.engine = .busy f ∧ t.commandClaim = f.progress.claims ∧
      t.domains = s.domains ∧ f.flags = o.flags ∧
      (f.progress = .refused .badRecord ↔ bad) ∧
      (¬ bad → ¬ restart → (d.cursor = none ∨ ∃ p, d.cursor = some p ∧ p.segment ≠ name) → f.progress = .refused .staleCursor) ∧
      (∀ start, ¬ bad →
        ((restart ∧ start = 0) ∨ (¬ restart ∧ d.cursor = some { segment := name, offset := start })) →
        (start < seg.size → f.progress = .visit start 0 0) ∧ (seg.size ≤ start → f.progress = .complete))

/-- R37, R38, R173: at the take of a SET_DESCRIPTOR or RESTORE that is not DENIED, a copy that fails R37 (a segment outside the bounds of
R25, or a verdict whose ACTION, CLASS or GROUP lies outside its range) or, for RESTORE, whose STATE code is above 2, is refused
BAD_RECORD; one whose segments meet each other or another domain's is refused OVERLAP; RESTORING is set exactly by a RESTORE that passes
both. -/
def Obligations.DescriptorTakeChecks : Prop :=
  ∀ (o : Operands) (s : State) (c : Command), s.readyToTake → c = .setDescriptor ∨ c = .restore → o.domain.toNat ≤ 15 →
    o.rpl = 0 →
    let n := o.domain.toNat
    let v := s.stagingDomain
    let new := descriptorOf v
    let bad := badDescriptor v ∨ (c = .restore ∧ 2 < bitsAt v[0] 24 8)
    let meets := new.active.disjoint new.standby = false ∨ ∃ m, m < 16 ∧ m ≠ n ∧ new.apart (s.domainAt m).desc = false
    ∃ t f, exec (.ofCommand o c) s = .next t ∧ t.engine = .busy f ∧
      (bad → f.progress = .refused .badRecord) ∧
      (¬ bad → meets → f.progress = .refused .overlap) ∧
      (¬ bad → ¬ meets → f.progress = match nextLeaving (s.domainAt n).desc new 0 with
        | some i => .examine i
        | none => .complete) ∧
      (c = .restore → ¬ bad → ¬ meets → t.domainAt n = { s.domainAt n with restoring := true }) ∧
      (c = .setDescriptor ∨ bad ∨ meets → t.domains = s.domains)

/-! ## Grants of one-slot commands -/

/-- R150, R152: at the grant of a one-slot command the checks are made in the order NOT_IN_SEGMENT, STALE, WRONG_STATE, BAD_RECORD,
OCCUPIED, each by the commands that have it (R13, R48, R49, R92, R109, R153, R157); the first that fails is reported with the slot and its
GEN, and nothing else changes. BAD_RECORD is R48's: for WRITE_SLOT the whole copy by the bits of Table 11-6, for the commands that take a
VERDICT that word alone. -/
def Obligations.RefusedSlotCommandsChangeNothing : Prop :=
  (∀ (c : Command) (f : InFlight) (d : Descriptor) (r : Slot), c ∈ slotCommands →
    let out := d.active.has f.slot.toNat = false ∧ d.standby.has f.slot.toNat = false
    let handle := c ∈ [.setVerdict, .hold, .release, .confirm, .pin, .unpin, .retire] ∨ (c = .writeSlot ∧ flag0 f.flags = true)
    let stale := handle ∧ (r.state = .free ∨ r.gen ≠ f.gen)
    let wrong := (c = .hold ∧ r.state ≠ .live) ∨ (c = .release ∧ r.state ≠ .held) ∨ (c = .confirm ∧ r.state ≠ .provisional) ∨
      ((c = .pin ∨ c = .unpin) ∧ r.state = .provisional)
    let bad := (c = .writeSlot ∧ badBinding f.staged.bindingWords) ∨
      ((c = .setVerdict ∨ (c = .confirm ∧ flag0 f.flags = true)) ∧ badVerdict f.staged.bindingWords[9])
    let taken := c = .writeSlot ∧ flag0 f.flags = false ∧ r.state ≠ .free
    (out → grantCheck c f d r = some .notInSegment) ∧
    (¬ out → stale → grantCheck c f d r = some .stale) ∧
    (¬ out → ¬ stale → wrong → grantCheck c f d r = some .wrongState) ∧
    (¬ out → ¬ stale → ¬ wrong → bad → grantCheck c f d r = some .badRecord) ∧
    (¬ out → ¬ stale → ¬ wrong → ¬ bad → taken → grantCheck c f d r = some .occupied) ∧
    (¬ out → ¬ stale → ¬ wrong → ¬ bad → ¬ taken → grantCheck c f d r = none)) ∧
  (∀ (s : State) (f : InFlight) (c : Command) (code : ResultCode), s.grantsCommand f c .grant → c ∈ slotCommands →
    let r := s.slotAt f.slot.toNat
    grantCheck c f (s.domainAt f.domain.toNat).desc r = some code →
    exec .commandGrant s = .next { s with
      lastGranted := .command, commandClaim := false, engine := .idle
      result := { code := code, slot := f.slot.toNat, gen := r.gen, cursor := none, count := 0 } })

/-- R154: a WRITE_SLOT that passes its checks writes the whole record from its copy with GEN plus one, and reports the new GEN. -/
def Obligations.WriteSlotWritesTheWholeRecord : Prop :=
  ∀ (s : State) (f : InFlight), s.grantsCommand f .writeSlot .grant →
    let i := f.slot.toNat
    let b := bindingOf f.staged.bindingWords
    grantCheck .writeSlot f (s.domainAt f.domain.toNat).desc (s.slotAt i) = none →
    exec .commandGrant s = .next { s with
      lastGranted := .command, commandClaim := false, engine := .idle
      slots := s.slots.setIfInBounds i
        { state := b.state, gen := (s.slotAt i).gen + 1, domain := f.domain.setWidth 4, addr := b.addr, addrMask := b.addrMask
          role := b.role, net := b.net, ports := b.ports, proto := b.proto, verdict := b.verdict, level := .active, idle := 0
          pinned := b.pinned, learned := false, readPending := false, frames := 0, octets := 0 }
      result := { code := .done, slot := i, gen := (s.slotAt i).gen + 1, cursor := none, count := 0 } }

/-- R93, R109, R156, R157, R159: what SET_VERDICT, HOLD, RELEASE, CONFIRM, PIN, UNPIN and RETIRE change of a slot whose checks pass; every
other field, the GEN among them, is kept, and nothing else changes but RESULT. -/
def Obligations.EditsChangeTheirFieldsAlone : Prop :=
  ∀ (s : State) (f : InFlight) (c : Command), s.grantsCommand f c .grant →
    c ∈ [.setVerdict, .hold, .release, .confirm, .pin, .unpin, .retire] →
    let i := f.slot.toNat
    let r := s.slotAt i
    grantCheck c f (s.domainAt f.domain.toNat).desc r = none →
    let v := verdictOf f.staged.bindingWords[9]
    exec .commandGrant s = .next { s with
      lastGranted := .command, commandClaim := false, engine := .idle
      slots := s.slots.setIfInBounds i
        (if c = .setVerdict then { r with verdict := v }
         else if c = .hold then { r with state := .held }
         else if c = .release then { r with state := .live }
         else if c = .confirm then { r with state := .live, verdict := if flag0 f.flags = true then v else r.verdict }
         else if c = .pin then { r with pinned := true }
         else if c = .unpin then { r with pinned := false }
         else Slot.free r.gen)
      result := { code := .done, slot := i, gen := r.gen, cursor := none, count := 0 } }

/-- R117: READ_SLOT copies the slot into BINDING_VIEW as it stood, clears READ_PENDING, and with READ_CLEARS sets FRAMES and OCTETS to 0.
-/
def Obligations.ReadSlotCopiesThenClears : Prop :=
  ∀ (s : State) (f : InFlight), s.grantsCommand f .readSlot .grant →
    let i := f.slot.toNat
    let d := (s.domainAt f.domain.toNat).desc
    let r := s.slotAt i
    d.active.has i = true ∨ d.standby.has i = true →
    exec .commandGrant s = .next { s with
      lastGranted := .command, commandClaim := false, engine := .idle
      slots := s.slots.setIfInBounds i { r with
        readPending := false
        frames := if d.readClears = true then 0 else r.frames, octets := if d.readClears = true then 0 else r.octets }
      bindingView := r.words
      result := { code := .done, slot := i, gen := r.gen, cursor := none, count := 0 } }

/-! ## Passes and examinations -/

/-- R165, R167 and R168: one visit, judged by the criteria in the bits of Table 11-5. A SCAN ends FOUND at a selected slot; a SWEEP makes
a selected slot FREE and counts it; otherwise the issue ends at the segment's end, or after its 64th visit, or claims the next offset. -/
def Obligations.VisitsFindRetireOrMoveOn : Prop :=
  ∀ (s : State) (f : InFlight) (c : Command) (o v x : Nat), s.grantsCommand f c (.visit o v x) → c = .scan ∨ c = .sweep →
    f.domain.toNat ≤ 15 →
    let n := f.domain.toNat
    let d := s.domainAt n
    let name := segmentAsked f.flags
    let g := if bitsAt f.flags 1 1 = 1 then d.desc.standby else d.desc.active
    let i := g.base + o
    let r := s.slotAt i
    let hit := r.state ≠ .free ∧ fitsCriteria f.flags r
    let x' := if c = .sweep ∧ hit then x + 1 else x
    let granted : State := { s with
      lastGranted := .command, commandClaim := false
      slots := if c = .sweep ∧ hit then s.slots.setIfInBounds i (Slot.free r.gen) else s.slots }
    let ended (code : ResultCode) (slot : Nat) (gen : Byte) (cursor : Option Cursor) (count : Nat) : State := { granted with
      engine := .idle, domains := s.domains.setIfInBounds n { d with cursor := cursor }
      result := { code := code, slot := slot, gen := gen, cursor := cursor, count := count } }
    (c = .scan → hit →
      exec .passVisit s = .next (ended .found i r.gen (some { segment := name, offset := o + 1 }) 0)) ∧
    (c = .sweep ∨ ¬ hit → g.size ≤ o + 1 →
      exec .passVisit s = .next (ended (if c = .sweep then .done else .endOfPass) 0 0 none x')) ∧
    (c = .sweep ∨ ¬ hit → o + 1 < g.size → 64 ≤ v + 1 →
      exec .passVisit s = .next (ended .partialPass 0 0 (some { segment := name, offset := o + 1 }) x')) ∧
    (c = .sweep ∨ ¬ hit → o + 1 < g.size → v + 1 < 64 →
      exec .passVisit s = .next { granted with
        engine := .busy { f with progress := .visit (o + 1) (v + 1) x' }, commandClaim := true })

/-- R39 and R174: an examination grant of SET_DESCRIPTOR or RESTORE. A slot found not FREE ends the command with STRANDED, reporting it,
and RESTORE's RESTORING returns to no; a FREE one passes, and the next slot of a present segment that lies in neither new one is claimed,
or only the completion is left. -/
def Obligations.ExaminationEndsAtABinding : Prop :=
  ∀ (s : State) (f : InFlight) (c : Command) (i : Nat), s.grantsCommand f c (.examine i) → c = .setDescriptor ∨ c = .restore →
    f.domain.toNat ≤ 15 →
    let row := if c = .setDescriptor then Instr.descriptorExaminationGrant else .restoreExaminationGrant
    let n := f.domain.toNat
    let d := s.domainAt n
    let new := descriptorOf f.staged.domainWords
    let r := s.slotAt i
    (r.state ≠ .free → ∃ t, exec row s = .next t ∧
      t = { s with
        lastGranted := .command, commandClaim := false, engine := .idle
        result := { code := .stranded, slot := i, gen := r.gen, cursor := none, count := 0 }
        domains := s.domains.setIfInBounds n (if c = .restore then { d with restoring := false } else d)
        pulse := t.pulse }) ∧
    (r.state = .free → ∀ j, i < j → j < 1024 → d.desc.owns j = true → new.owns j = false →
      (∀ m, i < m → m < j → d.desc.owns m = false ∨ new.owns m = true) →
      exec row s = .next { s with lastGranted := .command, commandClaim := true, engine := .busy { f with progress := .examine j } }) ∧
    (r.state = .free → (∀ m, i < m → m < 1024 → d.desc.owns m = false ∨ new.owns m = true) →
      exec row s = .next { s with lastGranted := .command, commandClaim := false, engine := .busy { f with progress := .complete } })

/-! ## Completions -/

/-- R145, R148, R150: a command refused at its take completes with its code, SLOT 0 and GEN 0, and changes nothing else; so does a pass
that makes no visit, but for CURSOR, which becomes absent, with END or DONE (R166). -/
def Obligations.RefusedAndEmptyCommandsComplete : Prop :=
  ∀ (s : State) (f : InFlight),
    let plain (code : ResultCode) : Result := { code := code, slot := 0, gen := 0, cursor := none, count := 0 }
    (∀ code, s.engine = .busy f → f.progress = .refused code →
      exec .commandCompletion s = .next { s with engine := .idle, result := plain code }) ∧
    (∀ c, c = .scan ∨ c = .sweep → s.awaitsCompletion f c →
      exec .commandCompletion s = .next { s with
        engine := .idle, result := plain (if c = .scan then .endOfPass else .done)
        domains := s.domains.setIfInBounds f.domain.toNat { s.domainAt f.domain.toNat with cursor := none } })

/-- R36 and R40: the completion of a SET_DESCRIPTOR is refused with DOMAIN_ON when the active segment would change in a domain ON or
FROZEN, changing nothing; otherwise it loads the copied descriptor and makes CURSOR absent, leaving STATE, STICKY, the counters and
RESTORING. R175 and R141: the completion of a RESTORE loads the copied record with RESTORING no and CURSOR absent, with DONE, and changes
nothing else but an ATTN pulse. -/
def Obligations.SetDescriptorAndRestoreLoadTheirCopies : Prop :=
  (∀ (s : State) (f : InFlight), s.awaitsCompletion f .setDescriptor →
    let d := s.domainAt f.domain.toNat
    let new := descriptorOf f.staged.domainWords
    let refused := d.state ≠ .off ∧ new.active ≠ d.desc.active
    (refused → exec .commandCompletion s = .next { s with engine := .idle, result := .plain .domainOn }) ∧
    (¬ refused → ∃ t, exec .commandCompletion s = .next t ∧
      s.completedWith t f.domain.toNat { d with desc := new, cursor := none } (.plain .done))) ∧
  (∀ (s : State) (f : InFlight) (st : DomainState), s.awaitsCompletion f .restore →
    let v := f.staged.domainWords
    domainStateOf (field v[0] 24 8) = some st →
    ∃ t, exec .restoreCompletion s = .next t ∧
      s.completedWith t f.domain.toNat
        { state := st, desc := descriptorOf v, sticky := field v[1] 0 8, counters := countersOf v, cursor := none, restoring := false }
        (.plain .done))

/-- R42: EXCHANGE needs effective level 0 (any other is DENIED at the take) and takes no claim; its completion swaps the two segments and
makes CURSOR absent, with DONE, and changes nothing else; the attention summary does not change. -/
def Obligations.ExchangeSwapsTheSegments : Prop :=
  (∀ (o : Operands) (s : State), s.readyToTake → o.rpl ≠ 0 →
    ∃ f, exec (.exchange o) s = .next { s with
      engine := .busy f, refused := false, commandClaim := false, frame := .ignoring } ∧ f.progress = .refused .denied) ∧
  (∀ (o : Operands) (s : State), s.readyToTake → o.domain.toNat ≤ 15 → o.rpl = 0 →
    ∃ f, exec (.exchange o) s = .next { s with
      engine := .busy f, refused := false, commandClaim := false, frame := .ignoring } ∧
      f.command = some .exchange ∧ f.domain = o.domain ∧ f.progress = .complete) ∧
  (∀ (s : State) (f : InFlight), s.awaitsCompletion f .exchange →
    let d := s.domainAt f.domain.toNat
    exec .commandCompletion s = .next { s with
      engine := .idle, result := .plain .done
      domains := s.domains.setIfInBounds f.domain.toNat { d with
        desc := { d.desc with active := d.desc.standby, standby := d.desc.active }, cursor := none } })

/-- R34: SET_STATE needs effective level 0 (any other is DENIED at the take); a state code that names none of the three is BAD_RECORD,
judged at the take (that it is judged there is the model's, DEDUCED, log entry 12); otherwise its completion sets STATE, with DONE, and
changes nothing else. -/
def Obligations.SetStateSetsTheState : Prop :=
  (∀ (o : Operands) (s : State), s.readyToTake → o.rpl ≠ 0 →
    ∃ f, exec (.setState o) s = .next { s with
      engine := .busy f, refused := false, commandClaim := false, frame := .ignoring } ∧ f.progress = .refused .denied) ∧
  (∀ (o : Operands) (s : State), s.readyToTake → o.domain.toNat ≤ 15 → o.rpl = 0 →
    ∃ f, exec (.setState o) s = .next { s with
      engine := .busy f, refused := false, commandClaim := false, frame := .ignoring } ∧
      f.command = some .setState ∧ f.domain = o.domain ∧ f.value = o.value ∧
      f.progress = if o.value.toNat % 256 ≤ 2 then .complete else .refused .badRecord) ∧
  (∀ (s : State) (f : InFlight) (st : DomainState), s.awaitsCompletion f .setState →
    f.value.toNat % 256 = (match st with | .off => 0 | .on => 1 | .frozen => 2) →
    exec .commandCompletion s = .next { s with
      engine := .idle, result := .plain .done
      domains := s.domains.setIfInBounds f.domain.toNat { s.domainAt f.domain.toNat with state := st } })

/-- R170 and R171: SNAPSHOT needs effective level 0 (any other is DENIED at the take). It copies the record's words as they stand into
SNAPSHOT, with DONE; with REINIT the same event sets STATE OFF, MASK all eight, STICKY empty, the counters 0 and CURSOR absent; without it
the record is left. -/
def Obligations.SnapshotCopiesAndMayReinit : Prop :=
  (∀ (o : Operands) (s : State), s.readyToTake → o.rpl ≠ 0 →
    ∃ f, exec (.snapshot o) s = .next { s with
      engine := .busy f, refused := false, commandClaim := false, frame := .ignoring } ∧ f.progress = .refused .denied) ∧
  (∀ (o : Operands) (s : State), s.readyToTake → o.domain.toNat ≤ 15 → o.rpl = 0 →
    ∃ f, exec (.snapshot o) s = .next { s with
      engine := .busy f, refused := false, commandClaim := false, frame := .ignoring } ∧
      f.command = some .snapshot ∧ f.domain = o.domain ∧ f.flags = o.flags ∧ f.progress = .complete) ∧
  (∀ (s : State) (f : InFlight), s.awaitsCompletion f .snapshot →
    let d := s.domainAt f.domain.toNat
    (flag0 f.flags = false → exec .commandCompletion s = .next { s with
      engine := .idle, result := .plain .done, snapshot := d.words }) ∧
    (flag0 f.flags = true → ∃ t, exec .commandCompletion s = .next t ∧
      t = { s with
        engine := .idle, result := .plain .done, snapshot := d.words, pulse := t.pulse
        domains := s.domains.setIfInBounds f.domain.toNat { d with
          state := .off, desc := { d.desc with mask := 0xFF#8 }, sticky := 0, counters := .all 0, cursor := none } }))

/-- R124: COUNTERS needs effective level 0 (any other is DENIED at the take). With CLEAR it sets all eight counters to 0, with PRESET
alone to the value, with neither leaves them; it raises no condition and changes nothing else. -/
def Obligations.CountersSetsAllEight : Prop :=
  (∀ (o : Operands) (s : State), s.readyToTake → o.rpl ≠ 0 →
    ∃ f, exec (.counters o) s = .next { s with
      engine := .busy f, refused := false, commandClaim := false, frame := .ignoring } ∧ f.progress = .refused .denied) ∧
  (∀ (o : Operands) (s : State), s.readyToTake → o.domain.toNat ≤ 15 → o.rpl = 0 →
    ∃ f, exec (.counters o) s = .next { s with
      engine := .busy f, refused := false, commandClaim := false, frame := .ignoring } ∧
      f.command = some .counters ∧ f.domain = o.domain ∧ f.flags = o.flags ∧ f.value = o.value ∧ f.progress = .complete) ∧
  (∀ (s : State) (f : InFlight), s.awaitsCompletion f .counters →
    let d := s.domainAt f.domain.toNat
    exec .commandCompletion s = .next { s with
      engine := .idle, result := .plain .done
      domains := s.domains.setIfInBounds f.domain.toNat { d with
        counters := if f.flags.getLsbD 0 = true then .all 0 else if f.flags.getLsbD 1 = true then .all f.value else d.counters } })

/-- R139: CLEAR_CONDITIONS needs effective level 0 (any other is DENIED at the take). It removes the named members from STICKY, with S
judged again and DONE; MASK, STATE, the counters, the segments, CURSOR and every slot and device condition are kept. -/
def Obligations.ClearConditionsRemovesTheNamedMembers : Prop :=
  (∀ (o : Operands) (s : State), s.readyToTake → o.rpl ≠ 0 →
    ∃ f, exec (.clearConditions o) s = .next { s with
      engine := .busy f, refused := false, commandClaim := false, frame := .ignoring } ∧ f.progress = .refused .denied) ∧
  (∀ (o : Operands) (s : State), s.readyToTake → o.domain.toNat ≤ 15 → o.rpl = 0 →
    ∃ f, exec (.clearConditions o) s = .next { s with
      engine := .busy f, refused := false, commandClaim := false, frame := .ignoring } ∧
      f.command = some .clearConditions ∧ f.domain = o.domain ∧ f.value = o.value ∧ f.progress = .complete) ∧
  (∀ (s : State) (f : InFlight), s.awaitsCompletion f .clearConditions →
    let d := s.domainAt f.domain.toNat
    ∃ t e, exec .commandCompletion s = .next t ∧ e = { d with sticky := e.sticky } ∧
      (∀ c : Condition, inSet e.sticky c = (inSet d.sticky c && !inSet (f.value.setWidth 8) c)) ∧
      s.completedWith t f.domain.toNat e (.plain .done))

/-! ## Attention -/

/-- R134 to R137: in PULSE mode, an event after which the mode is PULSE starts (or extends) a pulse exactly when the enabled summary rises
at it, and otherwise keeps the pulse in progress, unless it ends it: only ATTN_PULSE_END and a full reset do, and a CONTROL write never
does while the mode stays PULSE. ATTN_PULSE_END ends the pulse in progress. No event leaves a pulse in progress in LEVEL mode that found
none (R138). The model's, not the spec's: without a pulse in progress ATTN_PULSE_END answers the fault noPulse (DEDUCED, log entry 2), and
a pulse that is extended stays in progress without a trace of when it will end (DEDUCED, log entry 4). -/
def Obligations.PulsesStartExactlyAtARise : Prop :=
  (∀ (c : Instr) (s t : State), exec c s = .next t →
    (PulseInvariant s → PulseInvariant t) ∧
    (t.attnMode = .pulse →
      (s.enabledSummary = false → t.enabledSummary = true → t.pulse = true) ∧
      (s.pulse = false → t.pulse = true → s.enabledSummary = false ∧ t.enabledSummary = true) ∧
      (s.pulse = true → t.pulse = false → c = .attnPulseEnd))) ∧
  (∀ s : State,
    (s.pulse = true → exec .attnPulseEnd s = .next { s with pulse := false }) ∧
    (s.pulse = false → exec .attnPulseEnd s = .fault .noPulse))

/-- R134 to R136: S is true exactly outside INIT with some domain attending or an unmasked device condition; in LEVEL mode ATTN is
asserted exactly when ATTN_ENABLE and S hold; the polarity says which level the line takes; bit n of DOMAIN_ATTENTION shows domain n. -/
def Obligations.AttentionSummaryAndLine : Prop :=
  ∀ s : State,
    (s.summary = true ↔ s.inInit = false ∧
      ((∃ n, n < 16 ∧ (s.domainAt n).restoring = false ∧
          ∃ c : Condition, inSet (s.domainAt n).sticky c = true ∧ inSet (s.domainAt n).desc.mask c = false) ∨
        ∃ j, j < 3 ∧ s.deviceSticky.getLsbD j = true ∧ s.deviceMask.getLsbD j = false)) ∧
    (s.attnMode = .level → (s.attnAsserted = true ↔ s.attnEnable = true ∧ s.summary = true)) ∧
    (s.attnMode = .pulse → s.attnAsserted = s.pulse) ∧
    (s.attnHigh = true ↔ (s.attnPolarity = .high ↔ s.attnAsserted = true)) ∧
    (∀ n, n < 16 → (s.domainAttention.getLsbD n = true ↔ (s.domainAt n).attending = true))

/-! ## The Management Port -/

/-- R29, R98, R133, R138, R177, R178: the register writes, at the completion of a REG_WRITE frame's fourth data byte. In INIT each is
ignored; otherwise each sets its own fields, and a write of any other address changes nothing. Where the bytes of the frame are ignored,
after a full reset among others, it changes nothing (R176, R188). -/
def Obligations.RegisterWritesSetTheirFields : Prop :=
  ∀ (w : Word) (s : State),
    (s.frame = .opened .regWrite → s.inInit = true → ∀ a, exec (.controlWrite w) s = .next { s with frame := .ignoring } ∧
      exec (.ageStepWrite w) s = .next { s with frame := .ignoring } ∧
      exec (.deviceConditionsWrite w) s = .next { s with frame := .ignoring } ∧
      exec (.deviceMaskWrite w) s = .next { s with frame := .ignoring } ∧
      exec (.regWrite a w) s = .next { s with frame := .ignoring }) ∧
    (s.frame = .opened .regWrite → s.inInit = false →
      (∃ t, exec (.controlWrite w) s = .next t ∧
        t = { s with
          frame := .ignoring, pulse := t.pulse, linkLevel := w.extractLsb' 16 2, summaryStart := w.extractLsb' 8 3
          attnPolarity := if w.getLsbD 2 = true then .high else .low
          attnMode := if w.getLsbD 1 = true then .pulse else .level, attnEnable := w.getLsbD 0 } ∧
        (w.getLsbD 1 = false → t.pulse = false)) ∧
      exec (.ageStepWrite w) s = .next { s with
        frame := .ignoring, ageStep := w.extractLsb' 0 8
        ageInterval := if w.extractLsb' 0 8 = 0#8 then none else some (w.extractLsb' 0 8) } ∧
      (∃ t, exec (.deviceConditionsWrite w) s = .next t ∧
        t = { s with frame := .ignoring, pulse := t.pulse, deviceSticky := t.deviceSticky } ∧
        ∀ j, j < 3 → t.deviceSticky.getLsbD j = (s.deviceSticky.getLsbD j && !w.getLsbD j)) ∧
      (∃ t, exec (.deviceMaskWrite w) s = .next t ∧
        t = { s with frame := .ignoring, pulse := t.pulse, deviceMask := w.extractLsb' 0 3 }) ∧
      (∀ a : Byte, a.toNat < 2 ∨ 5 < a.toNat → exec (.regWrite a w) s = .next { s with frame := .ignoring })) ∧
    (s.frame = .ignoring → ∀ a, exec (.controlWrite w) s = .next s ∧ exec (.ageStepWrite w) s = .next s ∧
      exec (.deviceConditionsWrite w) s = .next s ∧ exec (.deviceMaskWrite w) s = .next s ∧ exec (.regWrite a w) s = .next s)

/-- R176, R177, R179, R182: the reads take a word's value at the byte before its first, send it, and change nothing but that a STATUS word
sent in full clears FRAME_ERROR. What the registers, the windows and the summary words hold is RegistersWindowsAndSummaryShowTheirOwners.
-/
def Obligations.ReadsSendAndClearFrameErrorAlone : Prop :=
  ∀ s : State,
    (∀ a, s.frame = .opened .regRead → exec (.statusRead (.address a)) s = .next { s with frame := .regRead a (s.register a) }) ∧
    (∀ a w, s.frame = .regRead a w → exec (.statusRead .sent) s = .next { s with
      frame := .ignoring, sdoWords := s.sdoWords ++ [w], frameError := s.frameError && decide (a ≠ 1) }) ∧
    (s.frame = .selected → exec (.summary .code) s = .next { s with
      frame := .summary s.summaryStart.toNat (s.summaryWord s.summaryStart.toNat) }) ∧
    (∀ i w, s.frame = .summary i w → exec (.summary .word) s = .next { s with
      frame := .summary (i + 1) (s.summaryWord (i + 1)), sdoWords := s.sdoWords ++ [w]
      frameError := s.frameError && decide (i ≠ 0) }) ∧
    (∀ x y, s.frame = .opened .windowRead →
      exec (.windowRead (.header x y)) s = .next { s with frame := .windowRead x y.toNat (s.windowWord x y.toNat) }) ∧
    (∀ x i w, s.frame = .windowRead x i w → exec (.windowRead .word) s = .next { s with
      frame := .windowRead x (i + 1) (s.windowWord x (i + 1)), sdoWords := s.sdoWords ++ [w] })

/-- R179 and R185: WINDOW_WRITE writes a word of a staging window at the start word plus the number of words already written by the frame,
in the positions of Tables 11-6 and 11-7 that RegistersWindowsAndSummaryShowTheirOwners writes out, ignoring every other; past the
window's end, in any other window, and in INIT it discards the word, and nothing changes. R176 and R188: CS_N falls and a frame begins;
its first byte opens a frame of the kind it names, or, naming none, sets FRAME_ERROR, unless RESET_N is held, and the rest of the frame is
ignored; the rise of CS_N ends the frame in progress and does nothing else; bytes that are ignored change nothing. SDO carries the word
taken for a read, is driven 0 in every other byte of a frame, and is not driven while CS_N is high. The model's, not the spec's: a rise of
CS_N while it is high changes nothing (DESIGN CHOICE, log entry 6), and the fall of CS_N and a frame code that names a kind are events of
the row FRAME_ERROR (DEDUCED, log entry 8). -/
def Obligations.WindowWritesFrameCodesEdgesAndSdo : Prop :=
  ∀ (s : State) (x : Byte) (i : Nat) (w : Word),
    (∀ y : Byte, s.frame = .opened .windowWrite →
      exec (.windowWrite (.header x y)) s = .next { s with frame := .windowWrite x y.toNat }) ∧
    (s.frame = .windowWrite x i → s.inInit = false → x = 0 → ∀ h : i < 16,
      exec (.windowWrite (.word w)) s = .next { s with
        frame := .windowWrite x (i + 1), stagingBinding := s.stagingBinding.setIfInBounds i (w &&& bindingPositions[i]) }) ∧
    (s.frame = .windowWrite x i → s.inInit = false → x = 1 → ∀ h : i < 24,
      exec (.windowWrite (.word w)) s = .next { s with
        frame := .windowWrite x (i + 1), stagingDomain := s.stagingDomain.setIfInBounds i (w &&& domainPositions[i]) }) ∧
    (s.frame = .windowWrite x i → s.inInit = true ∨ 1 < x.toNat ∨ (x = 0 ∧ 16 ≤ i) ∨ (x = 1 ∧ 24 ≤ i) →
      exec (.windowWrite (.word w)) s = .next s) ∧
    (s.frame = .idle → exec (.frameError .fall) s = .next { s with frame := .selected }) ∧
    (∀ p ∈ [(0x01#8, FrameKind.regRead), (0x02#8, .regWrite), (0x03#8, .windowRead), (0x04#8, .windowWrite), (0x05#8, .command)],
      s.frame = .selected → exec (.frameError (.code p.1)) s = .next { s with frame := .opened p.2 }) ∧
    (∀ code : Byte, code.toNat = 0 ∨ 6 < code.toNat → s.frame = .selected →
      exec (.frameError (.code code)) s = .next { s with frameError := s.frameError || !s.resetHeld, frame := .ignoring }) ∧
    exec (.frameEnd) s = .next { s with frame := .idle } ∧
    (s.frame = .ignoring → exec (.statusRead .sent) s = .next s ∧ exec (.windowRead .word) s = .next s ∧
      (∀ w, exec (.windowWrite (.word w)) s = .next s) ∧ exec (.summary .word) s = .next s ∧
      (∀ a, exec (.statusRead (.address a)) s = .next s) ∧ (∀ y, exec (.windowRead (.header x y)) s = .next s) ∧
      (∀ y, exec (.windowWrite (.header x y)) s = .next s) ∧ exec (.summary .code) s = .next s ∧
      (∀ code, exec (.frameError (.code code)) s = .next s)) ∧
    (s.sdo = .notDriven ↔ s.frame = .idle) ∧
    (s.sdo = .word w ↔ (∃ a, s.frame = .regRead a w) ∨ (∃ y j, s.frame = .windowRead y j w) ∨ ∃ j, s.frame = .summary j w)

/-! ## Layouts -/

/-- R176, R181 and R184: the bytes of a COMMAND frame, or of a REG_WRITE frame, make exactly the fall of CS_N, the frame code, the event
of its row with every operand as sent, and the rise of CS_N, whatever bytes come after its last one; a frame that CS_N cuts short before
its last byte makes no event of its row. The operand bytes stand in the order of R181, the opcodes are those of Table 11-4, and the rows
of REG_WRITE are those of the addresses of Table 11-2. The model's, not the spec's: R176 makes every byte completion an event, and that
these four alone are events of the model is log entry 7 (DEDUCED); that the fall of CS_N and the frame code are events of the row
FRAME_ERROR is log entry 8 (DEDUCED). -/
def Obligations.CommandAndRegisterFramesRoundTrip : Prop :=
  ([Command.writeSlot, .setVerdict, .hold, .release, .confirm, .pin, .unpin, .retire, .readSlot, .scan, .sweep, .setDescriptor, .exchange,
    .setState, .snapshot, .restore, .counters, .clearConditions, .reset].map Command.opcode =
      [0x10, 0x11, 0x12, 0x13, 0x14, 0x15, 0x16, 0x17, 0x18, 0x20, 0x21, 0x30, 0x31, 0x32, 0x33, 0x34, 0x35, 0x36, 0x3F]) ∧
  (∀ (w r s1 s0 g d f3 f2 f1 f0 v3 v2 v1 v0 : Byte) (more : List Byte) (o : Operands),
    o.rpl = r → o.slot.toNat = s1.toNat * 2 ^ 8 + s0.toNat → o.gen = g → o.domain = d →
    o.flags.toNat = f3.toNat * 2 ^ 24 + f2.toNat * 2 ^ 16 + f1.toNat * 2 ^ 8 + f0.toNat →
    o.value.toNat = v3.toNat * 2 ^ 24 + v2.toNat * 2 ^ 16 + v1.toNat * 2 ^ 8 + v0.toNat →
    ∃ e, frameEvents (0x05 :: w :: r :: s1 :: s0 :: g :: d :: f3 :: f2 :: f1 :: f0 :: v3 :: v2 :: v1 :: v0 :: more) =
      [.frameError .fall, .frameError (.code 0x05), e, .frameEnd] ∧
      (∀ c : Command, c.opcode = w → e = .ofCommand o c) ∧ ((∀ c : Command, c.opcode ≠ w) → e = .unknownCommand w o)) ∧
  (∀ (w : Byte) (o : Operands) (n : Nat), n < 15 → frameEvents ((commandFrameBytes w o).take n) =
    if n = 0 then [.frameError .fall, .frameEnd] else [.frameError .fall, .frameError (.code 0x05), .frameEnd]) ∧
  (∀ (a : Byte) (w : Word) (more : List Byte), frameEvents (regWriteFrameBytes a w ++ more) =
    [.frameError .fall, .frameError (.code 0x02),
      if a = 0x02 then .controlWrite w else if a = 0x03 then .ageStepWrite w else if a = 0x04 then .deviceConditionsWrite w
      else if a = 0x05 then .deviceMaskWrite w else .regWrite a w, .frameEnd]) ∧
  (∀ (a : Byte) (w : Word) (n : Nat), n < 6 → frameEvents ((regWriteFrameBytes a w).take n) =
    if n = 0 then [.frameError .fall, .frameEnd] else [.frameError .fall, .frameError (.code 0x02), .frameEnd])

/-- R185 and Table 11-7: the twenty-four words of a domain record hold its fields at the table's bits, zeros elsewhere, and a condition
set has its members at the table's bits; a descriptor and a record are read from the same bits. R170 and R185: for every domain record
with segments within their bounds, the words of its SNAPSHOT pass the BAD_RECORD check of RESTORE, and a RESTORE of them loads the same
record, every field at every value, with CURSOR absent and RESTORING no. -/
def Obligations.DomainRecordLayoutAndRoundTrip : Prop :=
  (∀ d : DomainRecord,
    let w := d.words
    w[0].toNat = (match d.state with | .off => 0 | .on => 1 | .frozen => 2) * 2 ^ 24 ∧
    w[1].toNat = d.sticky.toNat ∧
    w[2].toNat = d.desc.lookupLevel.toNat * 2 ^ 30 + d.desc.learnLevel.toNat * 2 ^ 28 + d.desc.editLevel.toNat * 2 ^ 26 +
      d.desc.learning.toNat * 2 ^ 11 + d.desc.autoRetire.toNat * 2 ^ 10 + d.desc.readClears.toNat * 2 ^ 9 +
      d.desc.countStop.toNat * 2 ^ 8 + d.desc.mask.toNat ∧
    w[3].toNat = d.desc.active.base % 2 ^ 16 * 2 ^ 16 + d.desc.active.size % 2 ^ 16 ∧
    w[4].toNat = d.desc.standby.base % 2 ^ 16 * 2 ^ 16 + d.desc.standby.size % 2 ^ 16 ∧
    w[5].toNat = d.desc.period1.toNat * 2 ^ 16 + d.desc.period2.toNat ∧
    w[6].toNat = d.desc.period3.toNat * 2 ^ 16 + d.desc.period4.toNat ∧
    w[7].toNat = d.desc.provPeriod.toNat * 2 ^ 16 ∧
    w[8].toNat = d.desc.defaultVerdict.number ∧ w[9].toNat = d.desc.provVerdict.number ∧
    [w[10], w[11], w[12], w[13], w[14], w[15], w[16], w[17]] =
      [d.counters.lookups, d.counters.hits, d.counters.heldHits, d.counters.misses, d.counters.denied, d.counters.learned,
        d.counters.aged, d.counters.touches] ∧
    [w[18], w[19], w[20], w[21], w[22], w[23]] = [0, 0, 0, 0, 0, 0]) ∧
  (∀ set : BitVec 8, [Condition.denied, .stale, .held, .full, .miss, .half, .wrap, .aged].map (inSet set) =
    [7, 6, 5, 4, 3, 2, 1, 0].map set.getLsbD) ∧
  (∀ v : Vector Word 24,
    let d := descriptorOf v
    d.active = ⟨bitsAt v[3] 16 16, bitsAt v[3] 0 16⟩ ∧ d.standby = ⟨bitsAt v[4] 16 16, bitsAt v[4] 0 16⟩ ∧
    d.lookupLevel.toNat = bitsAt v[2] 30 2 ∧ d.learnLevel.toNat = bitsAt v[2] 28 2 ∧ d.editLevel.toNat = bitsAt v[2] 26 2 ∧
    d.learning.toNat = bitsAt v[2] 11 1 ∧ d.autoRetire.toNat = bitsAt v[2] 10 1 ∧ d.readClears.toNat = bitsAt v[2] 9 1 ∧
    d.countStop.toNat = bitsAt v[2] 8 1 ∧ d.mask.toNat = bitsAt v[2] 0 8 ∧
    d.period1.toNat = bitsAt v[5] 16 16 ∧ d.period2.toNat = bitsAt v[5] 0 16 ∧
    d.period3.toNat = bitsAt v[6] 16 16 ∧ d.period4.toNat = bitsAt v[6] 0 16 ∧ d.provPeriod.toNat = bitsAt v[7] 16 16 ∧
    (¬ badVerdict v[8] → d.defaultVerdict.number = v[8].toNat) ∧ (¬ badVerdict v[9] → d.provVerdict.number = v[9].toNat) ∧
    (restoredRecordOf v).desc = d ∧ (restoredRecordOf v).sticky.toNat = bitsAt v[1] 0 8 ∧
    (restoredRecordOf v).counters = ⟨v[10], v[11], v[12], v[13], v[14], v[15], v[16], v[17]⟩) ∧
  (∀ d : DomainRecord, d.desc.active.inBounds = true → d.desc.standby.inBounds = true →
    domainValid d.words = true ∧ restoredRecordOf d.words = { d with cursor := none, restoring := false })

/-- R185 and Table 11-6: the sixteen words of a binding record hold its fields at the table's bits, an absent part showing zeros, and
zeros elsewhere; a copy of STAGING_BINDING that R48 does not refuse is read from the same bits. R48 and R185: for every LIVE or HELD
record as the part may hold it, the words READ_SLOT shows, offered unchanged in STAGING_BINDING, pass R48 and give back its state, PINNED,
key and verdict. -/
def Obligations.BindingRecordLayoutAndRoundTrip : Prop :=
  (∀ r : Slot,
    let w := r.words
    w[0].toNat = (match r.state with | .free => 0 | .provisional => 1 | .live => 2 | .held => 3) * 2 ^ 24 + r.gen.toNat * 2 ^ 16 +
      r.domain.toNat * 2 ^ 8 + r.level.depth ∧
    w[1].toNat = (match r.role with | .source => 0 | .destination => 1 | .either => 2) * 2 ^ 24 + r.addrMask.toNat * 2 ^ 16 +
      r.net.isSome.toNat * 2 ^ 15 + r.ports.isSome.toNat * 2 ^ 14 + r.proto.isSome.toNat * 2 ^ 13 +
      (match r.net with | some n => n.invert.toNat | none => 0) * 2 ^ 12 + r.pinned.toNat * 2 ^ 11 + r.learned.toNat * 2 ^ 10 +
      r.readPending.toNat * 2 ^ 9 + (match r.proto with | some p => p.toNat | none => 0) ∧
    w[2].toNat = r.addr.a0.toNat * 2 ^ 24 + r.addr.a1.toNat * 2 ^ 16 + r.addr.a2.toNat * 2 ^ 8 + r.addr.a3.toNat ∧
    w[3].toNat = r.addr.a4.toNat * 2 ^ 24 + r.addr.a5.toNat * 2 ^ 16 +
      (match r.net with | some ⟨.v6 _, p, _⟩ => 2 ^ 8 + p.toNat | some ⟨.v4 _, p, _⟩ => p.toNat | none => 0) ∧
    w[4].toNat * 2 ^ 96 + w[5].toNat * 2 ^ 64 + w[6].toNat * 2 ^ 32 + w[7].toNat =
      (match r.net with | some ⟨.v6 a, _, _⟩ => a.toNat | some ⟨.v4 a, _, _⟩ => a.toNat * 2 ^ 96 | none => 0) ∧
    w[8].toNat = (match r.ports with | some p => p.lo.toNat * 2 ^ 16 + p.hi.toNat | none => 0) ∧
    w[9].toNat = r.verdict.number ∧ w[10].toNat = r.idle.toNat ∧ w[11] = r.frames ∧
    w[12].toNat = r.octets.toNat / 2 ^ 32 ∧ w[13].toNat = r.octets.toNat % 2 ^ 32 ∧ w[14] = 0 ∧ w[15] = 0) ∧
  (∀ v : Vector Word 16, ¬ badBinding v →
    let b := bindingOf v
    b.state = (if bitsAt v[0] 24 8 = 2 then .live else .held) ∧
    b.pinned.toNat = bitsAt v[1] 11 1 ∧ b.addrMask.toNat = bitsAt v[1] 16 6 ∧
    b.role = (if bitsAt v[1] 24 8 = 0 then .source else if bitsAt v[1] 24 8 = 1 then .destination else .either) ∧
    [b.addr.a0.toNat, b.addr.a1.toNat, b.addr.a2.toNat, b.addr.a3.toNat, b.addr.a4.toNat, b.addr.a5.toNat] =
      [bitsAt v[2] 24 8, bitsAt v[2] 16 8, bitsAt v[2] 8 8, bitsAt v[2] 0 8, bitsAt v[3] 24 8, bitsAt v[3] 16 8] ∧
    (bitsAt v[1] 15 1 = 0 → b.net = none) ∧
    (bitsAt v[1] 15 1 = 1 → ∃ n, b.net = some n ∧ n.pre.toNat = bitsAt v[3] 0 8 ∧ n.invert.toNat = bitsAt v[1] 12 1 ∧
      (bitsAt v[3] 8 8 = 0 → n.address = .v4 v[4]) ∧ (bitsAt v[3] 8 8 = 1 → ∃ a, n.address = .v6 a ∧
        a.toNat = v[4].toNat * 2 ^ 96 + v[5].toNat * 2 ^ 64 + v[6].toNat * 2 ^ 32 + v[7].toNat)) ∧
    (bitsAt v[1] 14 1 = 0 → b.ports = none) ∧
    (bitsAt v[1] 14 1 = 1 → ∃ p, b.ports = some p ∧ p.lo.toNat = bitsAt v[8] 16 16 ∧ p.hi.toNat = bitsAt v[8] 0 16) ∧
    (bitsAt v[1] 13 1 = 0 → b.proto = none) ∧
    (bitsAt v[1] 13 1 = 1 → ∃ p, b.proto = some p ∧ p.toNat = bitsAt v[1] 0 8) ∧
    b.verdict.number = v[9].toNat) ∧
  (∀ r : Slot, r.state = .live ∨ r.state = .held → r.wellFormed = true →
    bindingValid r.words = true ∧
    bindingOf r.words =
      { state := r.state, pinned := r.pinned, addr := r.addr, addrMask := r.addrMask, role := r.role, net := r.net, ports := r.ports
        proto := r.proto, verdict := r.verdict })

/-- R187: a valid request is read from the bits of Table 11-9, with the fields its KIND uses (R47, R62), and the three words of a response
hold its fields at the bits of Table 11-10, zeros for what it does not carry. Every request as the queue may hold it is read back from its
words, and those words are valid. -/
def Obligations.RequestAndResponseLayouts : Prop :=
  (∀ v : RequestWords, requestValid v = true →
    let q := requestOf v
    let keyed (k : Key) : Prop :=
      k.role = (if bitsAt v[0] 12 2 = 0 then .source else .destination) ∧
      [k.addr.a0.toNat, k.addr.a1.toNat, k.addr.a2.toNat, k.addr.a3.toNat, k.addr.a4.toNat, k.addr.a5.toNat] =
        [bitsAt v[2] 24 8, bitsAt v[2] 16 8, bitsAt v[2] 8 8, bitsAt v[2] 0 8, bitsAt v[3] 24 8, bitsAt v[3] 16 8] ∧
      (bitsAt v[0] 16 1 = 0 → k.net = none) ∧
      (bitsAt v[0] 16 1 = 1 → bitsAt v[0] 10 2 = 0 → k.net = some (.v4 v[4])) ∧
      (bitsAt v[0] 16 1 = 1 → bitsAt v[0] 10 2 = 1 → ∃ a, k.net = some (.v6 a) ∧
        a.toNat = v[4].toNat * 2 ^ 96 + v[5].toNat * 2 ^ 64 + v[6].toNat * 2 ^ 32 + v[7].toNat) ∧
      (bitsAt v[0] 15 1 = 0 → k.port = none) ∧ (bitsAt v[0] 15 1 = 1 → ∃ p, k.port = some p ∧ p.toNat = bitsAt v[1] 16 16) ∧
      (bitsAt v[0] 14 1 = 0 → k.proto = none) ∧ (bitsAt v[0] 14 1 = 1 → ∃ p, k.proto = some p ∧ p.toNat = bitsAt v[1] 8 8)
    q.tag.toNat = bitsAt v[0] 24 6 ∧ q.domain.toNat = bitsAt v[0] 20 4 ∧ q.rpl.toNat = bitsAt v[0] 18 2 ∧
    (bitsAt v[0] 30 2 = 0 → ∃ learn k length, q.question = .lookup learn k length ∧ learn.toNat = bitsAt v[0] 17 1 ∧
      length.toNat = bitsAt v[3] 0 16 ∧ keyed k) ∧
    (bitsAt v[0] 30 2 = 1 → ∃ k, q.question = .probe k ∧ keyed k) ∧
    (bitsAt v[0] 30 2 = 2 → ∃ i g, q.question = .touch i g ∧ i.toNat = bitsAt v[0] 0 10 ∧ g.toNat = bitsAt v[1] 0 8)) ∧
  (∀ v : RequestWords, (tagOf v).toNat = bitsAt v[0] 24 6) ∧
  (∀ a : Response,
    let outcomes : List LinkOutcome :=
      [.hit, .provisional, .learned, .touched, .held, .none, .noAccess, .defaulted, .fault, .off, .busy, .notReady, .malformed]
    let conditions : List (Option Condition) := [none, some .denied, some .stale, some .held, some .full, some .miss]
    a.condition ∈ conditions →
    a.words[0].toNat = a.tag.toNat * 2 ^ 26 + outcomes.idxOf a.outcome * 2 ^ 22 + conditions.idxOf a.condition * 2 ^ 19 +
      a.handle.isSome.toNat * 2 ^ 18 + a.verdict.isSome.toNat * 2 ^ 17 + (match a.handle with | some h => h.slot % 2 ^ 10 | none => 0) ∧
    a.words[1].toNat = (match a.handle with | some h => h.gen.toNat | none => 0) ∧
    a.words[2].toNat = (match a.verdict with | some v => v.number | none => 0)) ∧
  (∀ r : Request, r.wellFormed = true → requestValid r.words = true ∧ requestOf r.words = r)

/-! ## Invariants -/

/-- Every invariant below holds right after reset. -/
def Obligations.ResetMeetsEveryInvariant : Prop :=
  LinkInvariant State.reset ∧ AgeingInvariant State.reset ∧ SlotsInvariant State.reset ∧ TableInvariant State.reset ∧
    RestoringInvariant State.reset ∧ PassInvariant State.reset ∧ InitInvariant State.reset ∧ PulseInvariant State.reset

/-- Every step keeps the link side's invariant (R67, R70, R71, R82). -/
def Obligations.StepKeepsTheLinkInvariant : Prop :=
  ∀ s t : State, LinkInvariant s → step s = .next t → LinkInvariant t

/-- Every step keeps the ageing side's invariant (R98 to R101, R111). -/
def Obligations.StepKeepsTheAgeingInvariant : Prop :=
  ∀ s t : State, AgeingInvariant s → step s = .next t → AgeingInvariant t

/-- Every step keeps every slot's record one that the part may hold (R7, R10, R49). -/
def Obligations.StepKeepsTheSlotsWellFormed : Prop :=
  ∀ s t : State, SlotsInvariant s → step s = .next t → SlotsInvariant t

/-- Every step keeps the segments within bounds and disjoint, and every binding inside a segment of its domain (R9, R25, R26). -/
def Obligations.StepKeepsTheTableInvariant : Prop :=
  ∀ s t : State, TableInvariant s → step s = .next t → TableInvariant t

/-- Every step keeps RESTORING yes exactly while a RESTORE of the domain is in flight (R33). -/
def Obligations.StepKeepsTheRestoringInvariant : Prop :=
  ∀ s t : State, RestoringInvariant s → step s = .next t → RestoringInvariant t

/-- Every step keeps the Command Engine's claim, every CURSOR and every visit in their bounds, and a SCAN's count of retired slots at 0
(R148, R164, R167, R168). -/
def Obligations.StepKeepsThePassInvariant : Prop :=
  ∀ s t : State, PassInvariant s → step s = .next t → PassInvariant t

/-- Every step keeps the part at its reset values throughout INIT (R22, R67, R142, R177 to R179, R188). -/
def Obligations.StepKeepsTheInitInvariant : Prop :=
  ∀ s t : State, InitInvariant s → step s = .next t → InitInvariant t
end

