-- ==== Sys2Proof/Laws/State.lean ====
section
/-! SUPPORT. One lemma for each field under each update of State: what the update leaves alone, and what it sets. -/

namespace Sys2Proof.Machine

variable (s : State)

/-! ### setSlot -/

@[simp] theorem setSlot_resetHeld (i : Nat) (r : Slot) : (s.setSlot i r).resetHeld = s.resetHeld := rfl
@[simp] theorem setSlot_linkReset (i : Nat) (r : Slot) : (s.setSlot i r).linkReset = s.linkReset := rfl
@[simp] theorem setSlot_searchClaim (i : Nat) (r : Slot) : (s.setSlot i r).searchClaim = s.searchClaim := rfl
@[simp] theorem setSlot_commandClaim (i : Nat) (r : Slot) : (s.setSlot i r).commandClaim = s.commandClaim := rfl
@[simp] theorem setSlot_ageingClaim (i : Nat) (r : Slot) : (s.setSlot i r).ageingClaim = s.ageingClaim := rfl
@[simp] theorem setSlot_lastGranted (i : Nat) (r : Slot) : (s.setSlot i r).lastGranted = s.lastGranted := rfl
@[simp] theorem setSlot_domains (i : Nat) (r : Slot) : (s.setSlot i r).domains = s.domains := rfl
@[simp] theorem setSlot_queue (i : Nat) (r : Slot) : (s.setSlot i r).queue = s.queue := rfl
@[simp] theorem setSlot_linkLevel (i : Nat) (r : Slot) : (s.setSlot i r).linkLevel = s.linkLevel := rfl
@[simp] theorem setSlot_holding (i : Nat) (r : Slot) : (s.setSlot i r).holding = s.holding := rfl
@[simp] theorem setSlot_ageStep (i : Nat) (r : Slot) : (s.setSlot i r).ageStep = s.ageStep := rfl
@[simp] theorem setSlot_ageInterval (i : Nat) (r : Slot) : (s.setSlot i r).ageInterval = s.ageInterval := rfl
@[simp] theorem setSlot_pendingTicks (i : Nat) (r : Slot) : (s.setSlot i r).pendingTicks = s.pendingTicks := rfl
@[simp] theorem setSlot_walk (i : Nat) (r : Slot) : (s.setSlot i r).walk = s.walk := rfl
@[simp] theorem setSlot_engine (i : Nat) (r : Slot) : (s.setSlot i r).engine = s.engine := rfl
@[simp] theorem setSlot_refused (i : Nat) (r : Slot) : (s.setSlot i r).refused = s.refused := rfl
@[simp] theorem setSlot_attnEnable (i : Nat) (r : Slot) : (s.setSlot i r).attnEnable = s.attnEnable := rfl
@[simp] theorem setSlot_attnMode (i : Nat) (r : Slot) : (s.setSlot i r).attnMode = s.attnMode := rfl
@[simp] theorem setSlot_attnPolarity (i : Nat) (r : Slot) : (s.setSlot i r).attnPolarity = s.attnPolarity := rfl
@[simp] theorem setSlot_pulse (i : Nat) (r : Slot) : (s.setSlot i r).pulse = s.pulse := rfl
@[simp] theorem setSlot_deviceSticky (i : Nat) (r : Slot) : (s.setSlot i r).deviceSticky = s.deviceSticky := rfl
@[simp] theorem setSlot_deviceMask (i : Nat) (r : Slot) : (s.setSlot i r).deviceMask = s.deviceMask := rfl
@[simp] theorem setSlot_summaryStart (i : Nat) (r : Slot) : (s.setSlot i r).summaryStart = s.summaryStart := rfl
@[simp] theorem setSlot_frameError (i : Nat) (r : Slot) : (s.setSlot i r).frameError = s.frameError := rfl
@[simp] theorem setSlot_frame (i : Nat) (r : Slot) : (s.setSlot i r).frame = s.frame := rfl
@[simp] theorem setSlot_stagingBinding (i : Nat) (r : Slot) : (s.setSlot i r).stagingBinding = s.stagingBinding := rfl
@[simp] theorem setSlot_stagingDomain (i : Nat) (r : Slot) : (s.setSlot i r).stagingDomain = s.stagingDomain := rfl
@[simp] theorem setSlot_bindingView (i : Nat) (r : Slot) : (s.setSlot i r).bindingView = s.bindingView := rfl
@[simp] theorem setSlot_snapshot (i : Nat) (r : Slot) : (s.setSlot i r).snapshot = s.snapshot := rfl
@[simp] theorem setSlot_result (i : Nat) (r : Slot) : (s.setSlot i r).result = s.result := rfl
@[simp] theorem setSlot_responses (i : Nat) (r : Slot) : (s.setSlot i r).responses = s.responses := rfl
@[simp] theorem setSlot_sdoWords (i : Nat) (r : Slot) : (s.setSlot i r).sdoWords = s.sdoWords := rfl
@[simp] theorem setSlot_pending (i : Nat) (r : Slot) : (s.setSlot i r).pending = s.pending := rfl

/-! ### setDomain -/

@[simp] theorem setDomain_resetHeld (n : Nat) (d : DomainRecord) : (s.setDomain n d).resetHeld = s.resetHeld := rfl
@[simp] theorem setDomain_linkReset (n : Nat) (d : DomainRecord) : (s.setDomain n d).linkReset = s.linkReset := rfl
@[simp] theorem setDomain_slots (n : Nat) (d : DomainRecord) : (s.setDomain n d).slots = s.slots := rfl
@[simp] theorem setDomain_searchClaim (n : Nat) (d : DomainRecord) : (s.setDomain n d).searchClaim = s.searchClaim := rfl
@[simp] theorem setDomain_commandClaim (n : Nat) (d : DomainRecord) : (s.setDomain n d).commandClaim = s.commandClaim := rfl
@[simp] theorem setDomain_ageingClaim (n : Nat) (d : DomainRecord) : (s.setDomain n d).ageingClaim = s.ageingClaim := rfl
@[simp] theorem setDomain_lastGranted (n : Nat) (d : DomainRecord) : (s.setDomain n d).lastGranted = s.lastGranted := rfl
@[simp] theorem setDomain_queue (n : Nat) (d : DomainRecord) : (s.setDomain n d).queue = s.queue := rfl
@[simp] theorem setDomain_linkLevel (n : Nat) (d : DomainRecord) : (s.setDomain n d).linkLevel = s.linkLevel := rfl
@[simp] theorem setDomain_holding (n : Nat) (d : DomainRecord) : (s.setDomain n d).holding = s.holding := rfl
@[simp] theorem setDomain_ageStep (n : Nat) (d : DomainRecord) : (s.setDomain n d).ageStep = s.ageStep := rfl
@[simp] theorem setDomain_ageInterval (n : Nat) (d : DomainRecord) : (s.setDomain n d).ageInterval = s.ageInterval := rfl
@[simp] theorem setDomain_pendingTicks (n : Nat) (d : DomainRecord) : (s.setDomain n d).pendingTicks = s.pendingTicks := rfl
@[simp] theorem setDomain_walk (n : Nat) (d : DomainRecord) : (s.setDomain n d).walk = s.walk := rfl
@[simp] theorem setDomain_engine (n : Nat) (d : DomainRecord) : (s.setDomain n d).engine = s.engine := rfl
@[simp] theorem setDomain_refused (n : Nat) (d : DomainRecord) : (s.setDomain n d).refused = s.refused := rfl
@[simp] theorem setDomain_attnEnable (n : Nat) (d : DomainRecord) : (s.setDomain n d).attnEnable = s.attnEnable := rfl
@[simp] theorem setDomain_attnMode (n : Nat) (d : DomainRecord) : (s.setDomain n d).attnMode = s.attnMode := rfl
@[simp] theorem setDomain_attnPolarity (n : Nat) (d : DomainRecord) : (s.setDomain n d).attnPolarity = s.attnPolarity := rfl
@[simp] theorem setDomain_pulse (n : Nat) (d : DomainRecord) : (s.setDomain n d).pulse = s.pulse := rfl
@[simp] theorem setDomain_deviceSticky (n : Nat) (d : DomainRecord) : (s.setDomain n d).deviceSticky = s.deviceSticky := rfl
@[simp] theorem setDomain_deviceMask (n : Nat) (d : DomainRecord) : (s.setDomain n d).deviceMask = s.deviceMask := rfl
@[simp] theorem setDomain_summaryStart (n : Nat) (d : DomainRecord) : (s.setDomain n d).summaryStart = s.summaryStart := rfl
@[simp] theorem setDomain_frameError (n : Nat) (d : DomainRecord) : (s.setDomain n d).frameError = s.frameError := rfl
@[simp] theorem setDomain_frame (n : Nat) (d : DomainRecord) : (s.setDomain n d).frame = s.frame := rfl
@[simp] theorem setDomain_stagingBinding (n : Nat) (d : DomainRecord) : (s.setDomain n d).stagingBinding = s.stagingBinding := rfl
@[simp] theorem setDomain_stagingDomain (n : Nat) (d : DomainRecord) : (s.setDomain n d).stagingDomain = s.stagingDomain := rfl
@[simp] theorem setDomain_bindingView (n : Nat) (d : DomainRecord) : (s.setDomain n d).bindingView = s.bindingView := rfl
@[simp] theorem setDomain_snapshot (n : Nat) (d : DomainRecord) : (s.setDomain n d).snapshot = s.snapshot := rfl
@[simp] theorem setDomain_result (n : Nat) (d : DomainRecord) : (s.setDomain n d).result = s.result := rfl
@[simp] theorem setDomain_responses (n : Nat) (d : DomainRecord) : (s.setDomain n d).responses = s.responses := rfl
@[simp] theorem setDomain_sdoWords (n : Nat) (d : DomainRecord) : (s.setDomain n d).sdoWords = s.sdoWords := rfl
@[simp] theorem setDomain_pending (n : Nat) (d : DomainRecord) : (s.setDomain n d).pending = s.pending := rfl

/-! ### respond -/

@[simp] theorem respond_resetHeld (r : Response) : (s.respond r).resetHeld = s.resetHeld := rfl
@[simp] theorem respond_linkReset (r : Response) : (s.respond r).linkReset = s.linkReset := rfl
@[simp] theorem respond_slots (r : Response) : (s.respond r).slots = s.slots := rfl
@[simp] theorem respond_searchClaim (r : Response) : (s.respond r).searchClaim = s.searchClaim := rfl
@[simp] theorem respond_commandClaim (r : Response) : (s.respond r).commandClaim = s.commandClaim := rfl
@[simp] theorem respond_ageingClaim (r : Response) : (s.respond r).ageingClaim = s.ageingClaim := rfl
@[simp] theorem respond_lastGranted (r : Response) : (s.respond r).lastGranted = s.lastGranted := rfl
@[simp] theorem respond_domains (r : Response) : (s.respond r).domains = s.domains := rfl
@[simp] theorem respond_queue (r : Response) : (s.respond r).queue = s.queue := rfl
@[simp] theorem respond_linkLevel (r : Response) : (s.respond r).linkLevel = s.linkLevel := rfl
@[simp] theorem respond_holding (r : Response) : (s.respond r).holding = s.holding := rfl
@[simp] theorem respond_ageStep (r : Response) : (s.respond r).ageStep = s.ageStep := rfl
@[simp] theorem respond_ageInterval (r : Response) : (s.respond r).ageInterval = s.ageInterval := rfl
@[simp] theorem respond_pendingTicks (r : Response) : (s.respond r).pendingTicks = s.pendingTicks := rfl
@[simp] theorem respond_walk (r : Response) : (s.respond r).walk = s.walk := rfl
@[simp] theorem respond_engine (r : Response) : (s.respond r).engine = s.engine := rfl
@[simp] theorem respond_refused (r : Response) : (s.respond r).refused = s.refused := rfl
@[simp] theorem respond_attnEnable (r : Response) : (s.respond r).attnEnable = s.attnEnable := rfl
@[simp] theorem respond_attnMode (r : Response) : (s.respond r).attnMode = s.attnMode := rfl
@[simp] theorem respond_attnPolarity (r : Response) : (s.respond r).attnPolarity = s.attnPolarity := rfl
@[simp] theorem respond_pulse (r : Response) : (s.respond r).pulse = s.pulse := rfl
@[simp] theorem respond_deviceSticky (r : Response) : (s.respond r).deviceSticky = s.deviceSticky := rfl
@[simp] theorem respond_deviceMask (r : Response) : (s.respond r).deviceMask = s.deviceMask := rfl
@[simp] theorem respond_summaryStart (r : Response) : (s.respond r).summaryStart = s.summaryStart := rfl
@[simp] theorem respond_frameError (r : Response) : (s.respond r).frameError = s.frameError := rfl
@[simp] theorem respond_frame (r : Response) : (s.respond r).frame = s.frame := rfl
@[simp] theorem respond_stagingBinding (r : Response) : (s.respond r).stagingBinding = s.stagingBinding := rfl
@[simp] theorem respond_stagingDomain (r : Response) : (s.respond r).stagingDomain = s.stagingDomain := rfl
@[simp] theorem respond_bindingView (r : Response) : (s.respond r).bindingView = s.bindingView := rfl
@[simp] theorem respond_snapshot (r : Response) : (s.respond r).snapshot = s.snapshot := rfl
@[simp] theorem respond_result (r : Response) : (s.respond r).result = s.result := rfl
@[simp] theorem respond_sdoWords (r : Response) : (s.respond r).sdoWords = s.sdoWords := rfl
@[simp] theorem respond_pending (r : Response) : (s.respond r).pending = s.pending := rfl

/-! ### complete -/

@[simp] theorem complete_resetHeld (r : Result) : (s.complete r).resetHeld = s.resetHeld := rfl
@[simp] theorem complete_linkReset (r : Result) : (s.complete r).linkReset = s.linkReset := rfl
@[simp] theorem complete_slots (r : Result) : (s.complete r).slots = s.slots := rfl
@[simp] theorem complete_searchClaim (r : Result) : (s.complete r).searchClaim = s.searchClaim := rfl
@[simp] theorem complete_commandClaim (r : Result) : (s.complete r).commandClaim = s.commandClaim := rfl
@[simp] theorem complete_ageingClaim (r : Result) : (s.complete r).ageingClaim = s.ageingClaim := rfl
@[simp] theorem complete_lastGranted (r : Result) : (s.complete r).lastGranted = s.lastGranted := rfl
@[simp] theorem complete_domains (r : Result) : (s.complete r).domains = s.domains := rfl
@[simp] theorem complete_queue (r : Result) : (s.complete r).queue = s.queue := rfl
@[simp] theorem complete_linkLevel (r : Result) : (s.complete r).linkLevel = s.linkLevel := rfl
@[simp] theorem complete_holding (r : Result) : (s.complete r).holding = s.holding := rfl
@[simp] theorem complete_ageStep (r : Result) : (s.complete r).ageStep = s.ageStep := rfl
@[simp] theorem complete_ageInterval (r : Result) : (s.complete r).ageInterval = s.ageInterval := rfl
@[simp] theorem complete_pendingTicks (r : Result) : (s.complete r).pendingTicks = s.pendingTicks := rfl
@[simp] theorem complete_walk (r : Result) : (s.complete r).walk = s.walk := rfl
@[simp] theorem complete_refused (r : Result) : (s.complete r).refused = s.refused := rfl
@[simp] theorem complete_attnEnable (r : Result) : (s.complete r).attnEnable = s.attnEnable := rfl
@[simp] theorem complete_attnMode (r : Result) : (s.complete r).attnMode = s.attnMode := rfl
@[simp] theorem complete_attnPolarity (r : Result) : (s.complete r).attnPolarity = s.attnPolarity := rfl
@[simp] theorem complete_pulse (r : Result) : (s.complete r).pulse = s.pulse := rfl
@[simp] theorem complete_deviceSticky (r : Result) : (s.complete r).deviceSticky = s.deviceSticky := rfl
@[simp] theorem complete_deviceMask (r : Result) : (s.complete r).deviceMask = s.deviceMask := rfl
@[simp] theorem complete_summaryStart (r : Result) : (s.complete r).summaryStart = s.summaryStart := rfl
@[simp] theorem complete_frameError (r : Result) : (s.complete r).frameError = s.frameError := rfl
@[simp] theorem complete_frame (r : Result) : (s.complete r).frame = s.frame := rfl
@[simp] theorem complete_stagingBinding (r : Result) : (s.complete r).stagingBinding = s.stagingBinding := rfl
@[simp] theorem complete_stagingDomain (r : Result) : (s.complete r).stagingDomain = s.stagingDomain := rfl
@[simp] theorem complete_bindingView (r : Result) : (s.complete r).bindingView = s.bindingView := rfl
@[simp] theorem complete_snapshot (r : Result) : (s.complete r).snapshot = s.snapshot := rfl
@[simp] theorem complete_responses (r : Result) : (s.complete r).responses = s.responses := rfl
@[simp] theorem complete_sdoWords (r : Result) : (s.complete r).sdoWords = s.sdoWords := rfl
@[simp] theorem complete_pending (r : Result) : (s.complete r).pending = s.pending := rfl

/-! ### sent -/

@[simp] theorem sent_resetHeld (w : Word) : (s.sent w).resetHeld = s.resetHeld := rfl
@[simp] theorem sent_linkReset (w : Word) : (s.sent w).linkReset = s.linkReset := rfl
@[simp] theorem sent_slots (w : Word) : (s.sent w).slots = s.slots := rfl
@[simp] theorem sent_searchClaim (w : Word) : (s.sent w).searchClaim = s.searchClaim := rfl
@[simp] theorem sent_commandClaim (w : Word) : (s.sent w).commandClaim = s.commandClaim := rfl
@[simp] theorem sent_ageingClaim (w : Word) : (s.sent w).ageingClaim = s.ageingClaim := rfl
@[simp] theorem sent_lastGranted (w : Word) : (s.sent w).lastGranted = s.lastGranted := rfl
@[simp] theorem sent_domains (w : Word) : (s.sent w).domains = s.domains := rfl
@[simp] theorem sent_queue (w : Word) : (s.sent w).queue = s.queue := rfl
@[simp] theorem sent_linkLevel (w : Word) : (s.sent w).linkLevel = s.linkLevel := rfl
@[simp] theorem sent_holding (w : Word) : (s.sent w).holding = s.holding := rfl
@[simp] theorem sent_ageStep (w : Word) : (s.sent w).ageStep = s.ageStep := rfl
@[simp] theorem sent_ageInterval (w : Word) : (s.sent w).ageInterval = s.ageInterval := rfl
@[simp] theorem sent_pendingTicks (w : Word) : (s.sent w).pendingTicks = s.pendingTicks := rfl
@[simp] theorem sent_walk (w : Word) : (s.sent w).walk = s.walk := rfl
@[simp] theorem sent_engine (w : Word) : (s.sent w).engine = s.engine := rfl
@[simp] theorem sent_refused (w : Word) : (s.sent w).refused = s.refused := rfl
@[simp] theorem sent_attnEnable (w : Word) : (s.sent w).attnEnable = s.attnEnable := rfl
@[simp] theorem sent_attnMode (w : Word) : (s.sent w).attnMode = s.attnMode := rfl
@[simp] theorem sent_attnPolarity (w : Word) : (s.sent w).attnPolarity = s.attnPolarity := rfl
@[simp] theorem sent_pulse (w : Word) : (s.sent w).pulse = s.pulse := rfl
@[simp] theorem sent_deviceSticky (w : Word) : (s.sent w).deviceSticky = s.deviceSticky := rfl
@[simp] theorem sent_deviceMask (w : Word) : (s.sent w).deviceMask = s.deviceMask := rfl
@[simp] theorem sent_summaryStart (w : Word) : (s.sent w).summaryStart = s.summaryStart := rfl
@[simp] theorem sent_frameError (w : Word) : (s.sent w).frameError = s.frameError := rfl
@[simp] theorem sent_frame (w : Word) : (s.sent w).frame = s.frame := rfl
@[simp] theorem sent_stagingBinding (w : Word) : (s.sent w).stagingBinding = s.stagingBinding := rfl
@[simp] theorem sent_stagingDomain (w : Word) : (s.sent w).stagingDomain = s.stagingDomain := rfl
@[simp] theorem sent_bindingView (w : Word) : (s.sent w).bindingView = s.bindingView := rfl
@[simp] theorem sent_snapshot (w : Word) : (s.sent w).snapshot = s.snapshot := rfl
@[simp] theorem sent_result (w : Word) : (s.sent w).result = s.result := rfl
@[simp] theorem sent_responses (w : Word) : (s.sent w).responses = s.responses := rfl
@[simp] theorem sent_pending (w : Word) : (s.sent w).pending = s.pending := rfl

/-! ### grant -/

@[simp] theorem grant_resetHeld (q : Requester) : (s.grant q).resetHeld = s.resetHeld := by cases q <;> rfl
@[simp] theorem grant_linkReset (q : Requester) : (s.grant q).linkReset = s.linkReset := by cases q <;> rfl
@[simp] theorem grant_slots (q : Requester) : (s.grant q).slots = s.slots := by cases q <;> rfl
@[simp] theorem grant_domains (q : Requester) : (s.grant q).domains = s.domains := by cases q <;> rfl
@[simp] theorem grant_queue (q : Requester) : (s.grant q).queue = s.queue := by cases q <;> rfl
@[simp] theorem grant_linkLevel (q : Requester) : (s.grant q).linkLevel = s.linkLevel := by cases q <;> rfl
@[simp] theorem grant_holding (q : Requester) : (s.grant q).holding = s.holding := by cases q <;> rfl
@[simp] theorem grant_ageStep (q : Requester) : (s.grant q).ageStep = s.ageStep := by cases q <;> rfl
@[simp] theorem grant_ageInterval (q : Requester) : (s.grant q).ageInterval = s.ageInterval := by cases q <;> rfl
@[simp] theorem grant_pendingTicks (q : Requester) : (s.grant q).pendingTicks = s.pendingTicks := by cases q <;> rfl
@[simp] theorem grant_walk (q : Requester) : (s.grant q).walk = s.walk := by cases q <;> rfl
@[simp] theorem grant_engine (q : Requester) : (s.grant q).engine = s.engine := by cases q <;> rfl
@[simp] theorem grant_refused (q : Requester) : (s.grant q).refused = s.refused := by cases q <;> rfl
@[simp] theorem grant_attnEnable (q : Requester) : (s.grant q).attnEnable = s.attnEnable := by cases q <;> rfl
@[simp] theorem grant_attnMode (q : Requester) : (s.grant q).attnMode = s.attnMode := by cases q <;> rfl
@[simp] theorem grant_attnPolarity (q : Requester) : (s.grant q).attnPolarity = s.attnPolarity := by cases q <;> rfl
@[simp] theorem grant_pulse (q : Requester) : (s.grant q).pulse = s.pulse := by cases q <;> rfl
@[simp] theorem grant_deviceSticky (q : Requester) : (s.grant q).deviceSticky = s.deviceSticky := by cases q <;> rfl
@[simp] theorem grant_deviceMask (q : Requester) : (s.grant q).deviceMask = s.deviceMask := by cases q <;> rfl
@[simp] theorem grant_summaryStart (q : Requester) : (s.grant q).summaryStart = s.summaryStart := by cases q <;> rfl
@[simp] theorem grant_frameError (q : Requester) : (s.grant q).frameError = s.frameError := by cases q <;> rfl
@[simp] theorem grant_frame (q : Requester) : (s.grant q).frame = s.frame := by cases q <;> rfl
@[simp] theorem grant_stagingBinding (q : Requester) : (s.grant q).stagingBinding = s.stagingBinding := by cases q <;> rfl
@[simp] theorem grant_stagingDomain (q : Requester) : (s.grant q).stagingDomain = s.stagingDomain := by cases q <;> rfl
@[simp] theorem grant_bindingView (q : Requester) : (s.grant q).bindingView = s.bindingView := by cases q <;> rfl
@[simp] theorem grant_snapshot (q : Requester) : (s.grant q).snapshot = s.snapshot := by cases q <;> rfl
@[simp] theorem grant_result (q : Requester) : (s.grant q).result = s.result := by cases q <;> rfl
@[simp] theorem grant_responses (q : Requester) : (s.grant q).responses = s.responses := by cases q <;> rfl
@[simp] theorem grant_sdoWords (q : Requester) : (s.grant q).sdoWords = s.sdoWords := by cases q <;> rfl
@[simp] theorem grant_pending (q : Requester) : (s.grant q).pending = s.pending := by cases q <;> rfl

/-! ### judgeFrom -/

@[simp] theorem judgeFrom_resetHeld (b : State) : (b.judgeFrom s).resetHeld = s.resetHeld := by unfold State.judgeFrom; split <;> rfl
@[simp] theorem judgeFrom_linkReset (b : State) : (b.judgeFrom s).linkReset = s.linkReset := by unfold State.judgeFrom; split <;> rfl
@[simp] theorem judgeFrom_slots (b : State) : (b.judgeFrom s).slots = s.slots := by unfold State.judgeFrom; split <;> rfl
@[simp] theorem judgeFrom_searchClaim (b : State) : (b.judgeFrom s).searchClaim = s.searchClaim := by unfold State.judgeFrom; split <;> rfl
@[simp] theorem judgeFrom_commandClaim (b : State) : (b.judgeFrom s).commandClaim = s.commandClaim := by unfold State.judgeFrom; split <;> rfl
@[simp] theorem judgeFrom_ageingClaim (b : State) : (b.judgeFrom s).ageingClaim = s.ageingClaim := by unfold State.judgeFrom; split <;> rfl
@[simp] theorem judgeFrom_lastGranted (b : State) : (b.judgeFrom s).lastGranted = s.lastGranted := by unfold State.judgeFrom; split <;> rfl
@[simp] theorem judgeFrom_domains (b : State) : (b.judgeFrom s).domains = s.domains := by unfold State.judgeFrom; split <;> rfl
@[simp] theorem judgeFrom_queue (b : State) : (b.judgeFrom s).queue = s.queue := by unfold State.judgeFrom; split <;> rfl
@[simp] theorem judgeFrom_linkLevel (b : State) : (b.judgeFrom s).linkLevel = s.linkLevel := by unfold State.judgeFrom; split <;> rfl
@[simp] theorem judgeFrom_holding (b : State) : (b.judgeFrom s).holding = s.holding := by unfold State.judgeFrom; split <;> rfl
@[simp] theorem judgeFrom_ageStep (b : State) : (b.judgeFrom s).ageStep = s.ageStep := by unfold State.judgeFrom; split <;> rfl
@[simp] theorem judgeFrom_ageInterval (b : State) : (b.judgeFrom s).ageInterval = s.ageInterval := by unfold State.judgeFrom; split <;> rfl
@[simp] theorem judgeFrom_pendingTicks (b : State) : (b.judgeFrom s).pendingTicks = s.pendingTicks := by unfold State.judgeFrom; split <;> rfl
@[simp] theorem judgeFrom_walk (b : State) : (b.judgeFrom s).walk = s.walk := by unfold State.judgeFrom; split <;> rfl
@[simp] theorem judgeFrom_engine (b : State) : (b.judgeFrom s).engine = s.engine := by unfold State.judgeFrom; split <;> rfl
@[simp] theorem judgeFrom_refused (b : State) : (b.judgeFrom s).refused = s.refused := by unfold State.judgeFrom; split <;> rfl
@[simp] theorem judgeFrom_attnEnable (b : State) : (b.judgeFrom s).attnEnable = s.attnEnable := by unfold State.judgeFrom; split <;> rfl
@[simp] theorem judgeFrom_attnMode (b : State) : (b.judgeFrom s).attnMode = s.attnMode := by unfold State.judgeFrom; split <;> rfl
@[simp] theorem judgeFrom_attnPolarity (b : State) : (b.judgeFrom s).attnPolarity = s.attnPolarity := by unfold State.judgeFrom; split <;> rfl
@[simp] theorem judgeFrom_deviceSticky (b : State) : (b.judgeFrom s).deviceSticky = s.deviceSticky := by unfold State.judgeFrom; split <;> rfl
@[simp] theorem judgeFrom_deviceMask (b : State) : (b.judgeFrom s).deviceMask = s.deviceMask := by unfold State.judgeFrom; split <;> rfl
@[simp] theorem judgeFrom_summaryStart (b : State) : (b.judgeFrom s).summaryStart = s.summaryStart := by unfold State.judgeFrom; split <;> rfl
@[simp] theorem judgeFrom_frameError (b : State) : (b.judgeFrom s).frameError = s.frameError := by unfold State.judgeFrom; split <;> rfl
@[simp] theorem judgeFrom_frame (b : State) : (b.judgeFrom s).frame = s.frame := by unfold State.judgeFrom; split <;> rfl
@[simp] theorem judgeFrom_stagingBinding (b : State) : (b.judgeFrom s).stagingBinding = s.stagingBinding := by unfold State.judgeFrom; split <;> rfl
@[simp] theorem judgeFrom_stagingDomain (b : State) : (b.judgeFrom s).stagingDomain = s.stagingDomain := by unfold State.judgeFrom; split <;> rfl
@[simp] theorem judgeFrom_bindingView (b : State) : (b.judgeFrom s).bindingView = s.bindingView := by unfold State.judgeFrom; split <;> rfl
@[simp] theorem judgeFrom_snapshot (b : State) : (b.judgeFrom s).snapshot = s.snapshot := by unfold State.judgeFrom; split <;> rfl
@[simp] theorem judgeFrom_result (b : State) : (b.judgeFrom s).result = s.result := by unfold State.judgeFrom; split <;> rfl
@[simp] theorem judgeFrom_responses (b : State) : (b.judgeFrom s).responses = s.responses := by unfold State.judgeFrom; split <;> rfl
@[simp] theorem judgeFrom_sdoWords (b : State) : (b.judgeFrom s).sdoWords = s.sdoWords := by unfold State.judgeFrom; split <;> rfl
@[simp] theorem judgeFrom_pending (b : State) : (b.judgeFrom s).pending = s.pending := by unfold State.judgeFrom; split <;> rfl

/-! ### raiseDevice -/

@[simp] theorem raiseDevice_resetHeld (c : DeviceCondition) : (s.raiseDevice c).resetHeld = s.resetHeld := by simp [State.raiseDevice]
@[simp] theorem raiseDevice_linkReset (c : DeviceCondition) : (s.raiseDevice c).linkReset = s.linkReset := by simp [State.raiseDevice]
@[simp] theorem raiseDevice_slots (c : DeviceCondition) : (s.raiseDevice c).slots = s.slots := by simp [State.raiseDevice]
@[simp] theorem raiseDevice_searchClaim (c : DeviceCondition) : (s.raiseDevice c).searchClaim = s.searchClaim := by simp [State.raiseDevice]
@[simp] theorem raiseDevice_commandClaim (c : DeviceCondition) : (s.raiseDevice c).commandClaim = s.commandClaim := by simp [State.raiseDevice]
@[simp] theorem raiseDevice_ageingClaim (c : DeviceCondition) : (s.raiseDevice c).ageingClaim = s.ageingClaim := by simp [State.raiseDevice]
@[simp] theorem raiseDevice_lastGranted (c : DeviceCondition) : (s.raiseDevice c).lastGranted = s.lastGranted := by simp [State.raiseDevice]
@[simp] theorem raiseDevice_domains (c : DeviceCondition) : (s.raiseDevice c).domains = s.domains := by simp [State.raiseDevice]
@[simp] theorem raiseDevice_queue (c : DeviceCondition) : (s.raiseDevice c).queue = s.queue := by simp [State.raiseDevice]
@[simp] theorem raiseDevice_linkLevel (c : DeviceCondition) : (s.raiseDevice c).linkLevel = s.linkLevel := by simp [State.raiseDevice]
@[simp] theorem raiseDevice_holding (c : DeviceCondition) : (s.raiseDevice c).holding = s.holding := by simp [State.raiseDevice]
@[simp] theorem raiseDevice_ageStep (c : DeviceCondition) : (s.raiseDevice c).ageStep = s.ageStep := by simp [State.raiseDevice]
@[simp] theorem raiseDevice_ageInterval (c : DeviceCondition) : (s.raiseDevice c).ageInterval = s.ageInterval := by simp [State.raiseDevice]
@[simp] theorem raiseDevice_pendingTicks (c : DeviceCondition) : (s.raiseDevice c).pendingTicks = s.pendingTicks := by simp [State.raiseDevice]
@[simp] theorem raiseDevice_walk (c : DeviceCondition) : (s.raiseDevice c).walk = s.walk := by simp [State.raiseDevice]
@[simp] theorem raiseDevice_engine (c : DeviceCondition) : (s.raiseDevice c).engine = s.engine := by simp [State.raiseDevice]
@[simp] theorem raiseDevice_refused (c : DeviceCondition) : (s.raiseDevice c).refused = s.refused := by simp [State.raiseDevice]
@[simp] theorem raiseDevice_attnEnable (c : DeviceCondition) : (s.raiseDevice c).attnEnable = s.attnEnable := by simp [State.raiseDevice]
@[simp] theorem raiseDevice_attnMode (c : DeviceCondition) : (s.raiseDevice c).attnMode = s.attnMode := by simp [State.raiseDevice]
@[simp] theorem raiseDevice_attnPolarity (c : DeviceCondition) : (s.raiseDevice c).attnPolarity = s.attnPolarity := by simp [State.raiseDevice]
@[simp] theorem raiseDevice_deviceMask (c : DeviceCondition) : (s.raiseDevice c).deviceMask = s.deviceMask := by simp [State.raiseDevice]
@[simp] theorem raiseDevice_summaryStart (c : DeviceCondition) : (s.raiseDevice c).summaryStart = s.summaryStart := by simp [State.raiseDevice]
@[simp] theorem raiseDevice_frameError (c : DeviceCondition) : (s.raiseDevice c).frameError = s.frameError := by simp [State.raiseDevice]
@[simp] theorem raiseDevice_frame (c : DeviceCondition) : (s.raiseDevice c).frame = s.frame := by simp [State.raiseDevice]
@[simp] theorem raiseDevice_stagingBinding (c : DeviceCondition) : (s.raiseDevice c).stagingBinding = s.stagingBinding := by simp [State.raiseDevice]
@[simp] theorem raiseDevice_stagingDomain (c : DeviceCondition) : (s.raiseDevice c).stagingDomain = s.stagingDomain := by simp [State.raiseDevice]
@[simp] theorem raiseDevice_bindingView (c : DeviceCondition) : (s.raiseDevice c).bindingView = s.bindingView := by simp [State.raiseDevice]
@[simp] theorem raiseDevice_snapshot (c : DeviceCondition) : (s.raiseDevice c).snapshot = s.snapshot := by simp [State.raiseDevice]
@[simp] theorem raiseDevice_result (c : DeviceCondition) : (s.raiseDevice c).result = s.result := by simp [State.raiseDevice]
@[simp] theorem raiseDevice_responses (c : DeviceCondition) : (s.raiseDevice c).responses = s.responses := by simp [State.raiseDevice]
@[simp] theorem raiseDevice_sdoWords (c : DeviceCondition) : (s.raiseDevice c).sdoWords = s.sdoWords := by simp [State.raiseDevice]
@[simp] theorem raiseDevice_pending (c : DeviceCondition) : (s.raiseDevice c).pending = s.pending := by simp [State.raiseDevice]

/-! ### clearFrameErrorIf -/

@[simp] theorem clearFrameErrorIf_resetHeld (b : Bool) : (s.clearFrameErrorIf b).resetHeld = s.resetHeld := by cases b <;> rfl
@[simp] theorem clearFrameErrorIf_linkReset (b : Bool) : (s.clearFrameErrorIf b).linkReset = s.linkReset := by cases b <;> rfl
@[simp] theorem clearFrameErrorIf_slots (b : Bool) : (s.clearFrameErrorIf b).slots = s.slots := by cases b <;> rfl
@[simp] theorem clearFrameErrorIf_searchClaim (b : Bool) : (s.clearFrameErrorIf b).searchClaim = s.searchClaim := by cases b <;> rfl
@[simp] theorem clearFrameErrorIf_commandClaim (b : Bool) : (s.clearFrameErrorIf b).commandClaim = s.commandClaim := by cases b <;> rfl
@[simp] theorem clearFrameErrorIf_ageingClaim (b : Bool) : (s.clearFrameErrorIf b).ageingClaim = s.ageingClaim := by cases b <;> rfl
@[simp] theorem clearFrameErrorIf_lastGranted (b : Bool) : (s.clearFrameErrorIf b).lastGranted = s.lastGranted := by cases b <;> rfl
@[simp] theorem clearFrameErrorIf_domains (b : Bool) : (s.clearFrameErrorIf b).domains = s.domains := by cases b <;> rfl
@[simp] theorem clearFrameErrorIf_queue (b : Bool) : (s.clearFrameErrorIf b).queue = s.queue := by cases b <;> rfl
@[simp] theorem clearFrameErrorIf_linkLevel (b : Bool) : (s.clearFrameErrorIf b).linkLevel = s.linkLevel := by cases b <;> rfl
@[simp] theorem clearFrameErrorIf_holding (b : Bool) : (s.clearFrameErrorIf b).holding = s.holding := by cases b <;> rfl
@[simp] theorem clearFrameErrorIf_ageStep (b : Bool) : (s.clearFrameErrorIf b).ageStep = s.ageStep := by cases b <;> rfl
@[simp] theorem clearFrameErrorIf_ageInterval (b : Bool) : (s.clearFrameErrorIf b).ageInterval = s.ageInterval := by cases b <;> rfl
@[simp] theorem clearFrameErrorIf_pendingTicks (b : Bool) : (s.clearFrameErrorIf b).pendingTicks = s.pendingTicks := by cases b <;> rfl
@[simp] theorem clearFrameErrorIf_walk (b : Bool) : (s.clearFrameErrorIf b).walk = s.walk := by cases b <;> rfl
@[simp] theorem clearFrameErrorIf_engine (b : Bool) : (s.clearFrameErrorIf b).engine = s.engine := by cases b <;> rfl
@[simp] theorem clearFrameErrorIf_refused (b : Bool) : (s.clearFrameErrorIf b).refused = s.refused := by cases b <;> rfl
@[simp] theorem clearFrameErrorIf_attnEnable (b : Bool) : (s.clearFrameErrorIf b).attnEnable = s.attnEnable := by cases b <;> rfl
@[simp] theorem clearFrameErrorIf_attnMode (b : Bool) : (s.clearFrameErrorIf b).attnMode = s.attnMode := by cases b <;> rfl
@[simp] theorem clearFrameErrorIf_attnPolarity (b : Bool) : (s.clearFrameErrorIf b).attnPolarity = s.attnPolarity := by cases b <;> rfl
@[simp] theorem clearFrameErrorIf_pulse (b : Bool) : (s.clearFrameErrorIf b).pulse = s.pulse := by cases b <;> rfl
@[simp] theorem clearFrameErrorIf_deviceSticky (b : Bool) : (s.clearFrameErrorIf b).deviceSticky = s.deviceSticky := by cases b <;> rfl
@[simp] theorem clearFrameErrorIf_deviceMask (b : Bool) : (s.clearFrameErrorIf b).deviceMask = s.deviceMask := by cases b <;> rfl
@[simp] theorem clearFrameErrorIf_summaryStart (b : Bool) : (s.clearFrameErrorIf b).summaryStart = s.summaryStart := by cases b <;> rfl
@[simp] theorem clearFrameErrorIf_frame (b : Bool) : (s.clearFrameErrorIf b).frame = s.frame := by cases b <;> rfl
@[simp] theorem clearFrameErrorIf_stagingBinding (b : Bool) : (s.clearFrameErrorIf b).stagingBinding = s.stagingBinding := by cases b <;> rfl
@[simp] theorem clearFrameErrorIf_stagingDomain (b : Bool) : (s.clearFrameErrorIf b).stagingDomain = s.stagingDomain := by cases b <;> rfl
@[simp] theorem clearFrameErrorIf_bindingView (b : Bool) : (s.clearFrameErrorIf b).bindingView = s.bindingView := by cases b <;> rfl
@[simp] theorem clearFrameErrorIf_snapshot (b : Bool) : (s.clearFrameErrorIf b).snapshot = s.snapshot := by cases b <;> rfl
@[simp] theorem clearFrameErrorIf_result (b : Bool) : (s.clearFrameErrorIf b).result = s.result := by cases b <;> rfl
@[simp] theorem clearFrameErrorIf_responses (b : Bool) : (s.clearFrameErrorIf b).responses = s.responses := by cases b <;> rfl
@[simp] theorem clearFrameErrorIf_sdoWords (b : Bool) : (s.clearFrameErrorIf b).sdoWords = s.sdoWords := by cases b <;> rfl
@[simp] theorem clearFrameErrorIf_pending (b : Bool) : (s.clearFrameErrorIf b).pending = s.pending := by cases b <;> rfl

/-! ### writeSlotOpt -/

@[simp] theorem writeSlotOpt_resetHeld (w : Option (Nat × Slot)) : (s.writeSlot? w).resetHeld = s.resetHeld := by cases w <;> rfl
@[simp] theorem writeSlotOpt_linkReset (w : Option (Nat × Slot)) : (s.writeSlot? w).linkReset = s.linkReset := by cases w <;> rfl
@[simp] theorem writeSlotOpt_searchClaim (w : Option (Nat × Slot)) : (s.writeSlot? w).searchClaim = s.searchClaim := by cases w <;> rfl
@[simp] theorem writeSlotOpt_commandClaim (w : Option (Nat × Slot)) : (s.writeSlot? w).commandClaim = s.commandClaim := by cases w <;> rfl
@[simp] theorem writeSlotOpt_ageingClaim (w : Option (Nat × Slot)) : (s.writeSlot? w).ageingClaim = s.ageingClaim := by cases w <;> rfl
@[simp] theorem writeSlotOpt_lastGranted (w : Option (Nat × Slot)) : (s.writeSlot? w).lastGranted = s.lastGranted := by cases w <;> rfl
@[simp] theorem writeSlotOpt_domains (w : Option (Nat × Slot)) : (s.writeSlot? w).domains = s.domains := by cases w <;> rfl
@[simp] theorem writeSlotOpt_queue (w : Option (Nat × Slot)) : (s.writeSlot? w).queue = s.queue := by cases w <;> rfl
@[simp] theorem writeSlotOpt_linkLevel (w : Option (Nat × Slot)) : (s.writeSlot? w).linkLevel = s.linkLevel := by cases w <;> rfl
@[simp] theorem writeSlotOpt_holding (w : Option (Nat × Slot)) : (s.writeSlot? w).holding = s.holding := by cases w <;> rfl
@[simp] theorem writeSlotOpt_ageStep (w : Option (Nat × Slot)) : (s.writeSlot? w).ageStep = s.ageStep := by cases w <;> rfl
@[simp] theorem writeSlotOpt_ageInterval (w : Option (Nat × Slot)) : (s.writeSlot? w).ageInterval = s.ageInterval := by cases w <;> rfl
@[simp] theorem writeSlotOpt_pendingTicks (w : Option (Nat × Slot)) : (s.writeSlot? w).pendingTicks = s.pendingTicks := by cases w <;> rfl
@[simp] theorem writeSlotOpt_walk (w : Option (Nat × Slot)) : (s.writeSlot? w).walk = s.walk := by cases w <;> rfl
@[simp] theorem writeSlotOpt_engine (w : Option (Nat × Slot)) : (s.writeSlot? w).engine = s.engine := by cases w <;> rfl
@[simp] theorem writeSlotOpt_refused (w : Option (Nat × Slot)) : (s.writeSlot? w).refused = s.refused := by cases w <;> rfl
@[simp] theorem writeSlotOpt_attnEnable (w : Option (Nat × Slot)) : (s.writeSlot? w).attnEnable = s.attnEnable := by cases w <;> rfl
@[simp] theorem writeSlotOpt_attnMode (w : Option (Nat × Slot)) : (s.writeSlot? w).attnMode = s.attnMode := by cases w <;> rfl
@[simp] theorem writeSlotOpt_attnPolarity (w : Option (Nat × Slot)) : (s.writeSlot? w).attnPolarity = s.attnPolarity := by cases w <;> rfl
@[simp] theorem writeSlotOpt_pulse (w : Option (Nat × Slot)) : (s.writeSlot? w).pulse = s.pulse := by cases w <;> rfl
@[simp] theorem writeSlotOpt_deviceSticky (w : Option (Nat × Slot)) : (s.writeSlot? w).deviceSticky = s.deviceSticky := by cases w <;> rfl
@[simp] theorem writeSlotOpt_deviceMask (w : Option (Nat × Slot)) : (s.writeSlot? w).deviceMask = s.deviceMask := by cases w <;> rfl
@[simp] theorem writeSlotOpt_summaryStart (w : Option (Nat × Slot)) : (s.writeSlot? w).summaryStart = s.summaryStart := by cases w <;> rfl
@[simp] theorem writeSlotOpt_frameError (w : Option (Nat × Slot)) : (s.writeSlot? w).frameError = s.frameError := by cases w <;> rfl
@[simp] theorem writeSlotOpt_frame (w : Option (Nat × Slot)) : (s.writeSlot? w).frame = s.frame := by cases w <;> rfl
@[simp] theorem writeSlotOpt_stagingBinding (w : Option (Nat × Slot)) : (s.writeSlot? w).stagingBinding = s.stagingBinding := by cases w <;> rfl
@[simp] theorem writeSlotOpt_stagingDomain (w : Option (Nat × Slot)) : (s.writeSlot? w).stagingDomain = s.stagingDomain := by cases w <;> rfl
@[simp] theorem writeSlotOpt_bindingView (w : Option (Nat × Slot)) : (s.writeSlot? w).bindingView = s.bindingView := by cases w <;> rfl
@[simp] theorem writeSlotOpt_snapshot (w : Option (Nat × Slot)) : (s.writeSlot? w).snapshot = s.snapshot := by cases w <;> rfl
@[simp] theorem writeSlotOpt_result (w : Option (Nat × Slot)) : (s.writeSlot? w).result = s.result := by cases w <;> rfl
@[simp] theorem writeSlotOpt_responses (w : Option (Nat × Slot)) : (s.writeSlot? w).responses = s.responses := by cases w <;> rfl
@[simp] theorem writeSlotOpt_sdoWords (w : Option (Nat × Slot)) : (s.writeSlot? w).sdoWords = s.sdoWords := by cases w <;> rfl
@[simp] theorem writeSlotOpt_pending (w : Option (Nat × Slot)) : (s.writeSlot? w).pending = s.pending := by cases w <;> rfl

/-! ### fullReset -/

@[simp] theorem fullReset_resetHeld : s.fullReset.resetHeld = s.resetHeld := rfl
@[simp] theorem fullReset_linkReset : s.fullReset.linkReset = s.linkReset := rfl
@[simp] theorem fullReset_slots : s.fullReset.slots = State.reset.slots := rfl
@[simp] theorem fullReset_searchClaim : s.fullReset.searchClaim = State.reset.searchClaim := rfl
@[simp] theorem fullReset_commandClaim : s.fullReset.commandClaim = State.reset.commandClaim := rfl
@[simp] theorem fullReset_ageingClaim : s.fullReset.ageingClaim = State.reset.ageingClaim := rfl
@[simp] theorem fullReset_lastGranted : s.fullReset.lastGranted = State.reset.lastGranted := rfl
@[simp] theorem fullReset_domains : s.fullReset.domains = State.reset.domains := rfl
@[simp] theorem fullReset_queue : s.fullReset.queue = State.reset.queue := rfl
@[simp] theorem fullReset_linkLevel : s.fullReset.linkLevel = State.reset.linkLevel := rfl
@[simp] theorem fullReset_holding : s.fullReset.holding = State.reset.holding := rfl
@[simp] theorem fullReset_ageStep : s.fullReset.ageStep = State.reset.ageStep := rfl
@[simp] theorem fullReset_ageInterval : s.fullReset.ageInterval = State.reset.ageInterval := rfl
@[simp] theorem fullReset_pendingTicks : s.fullReset.pendingTicks = State.reset.pendingTicks := rfl
@[simp] theorem fullReset_walk : s.fullReset.walk = State.reset.walk := rfl
@[simp] theorem fullReset_engine : s.fullReset.engine = State.reset.engine := rfl
@[simp] theorem fullReset_refused : s.fullReset.refused = State.reset.refused := rfl
@[simp] theorem fullReset_attnEnable : s.fullReset.attnEnable = State.reset.attnEnable := rfl
@[simp] theorem fullReset_attnMode : s.fullReset.attnMode = State.reset.attnMode := rfl
@[simp] theorem fullReset_attnPolarity : s.fullReset.attnPolarity = State.reset.attnPolarity := rfl
@[simp] theorem fullReset_pulse : s.fullReset.pulse = State.reset.pulse := rfl
@[simp] theorem fullReset_deviceSticky : s.fullReset.deviceSticky = State.reset.deviceSticky := rfl
@[simp] theorem fullReset_deviceMask : s.fullReset.deviceMask = State.reset.deviceMask := rfl
@[simp] theorem fullReset_summaryStart : s.fullReset.summaryStart = State.reset.summaryStart := rfl
@[simp] theorem fullReset_frameError : s.fullReset.frameError = State.reset.frameError := rfl
@[simp] theorem fullReset_stagingBinding : s.fullReset.stagingBinding = State.reset.stagingBinding := rfl
@[simp] theorem fullReset_stagingDomain : s.fullReset.stagingDomain = State.reset.stagingDomain := rfl
@[simp] theorem fullReset_bindingView : s.fullReset.bindingView = State.reset.bindingView := rfl
@[simp] theorem fullReset_snapshot : s.fullReset.snapshot = State.reset.snapshot := rfl
@[simp] theorem fullReset_result : s.fullReset.result = State.reset.result := rfl
@[simp] theorem fullReset_responses : s.fullReset.responses = s.responses := rfl
@[simp] theorem fullReset_sdoWords : s.fullReset.sdoWords = s.sdoWords := rfl
@[simp] theorem fullReset_pending : s.fullReset.pending = s.pending := rfl

/-! ### What the updates set -/

@[simp] theorem setSlot_slots (i : Nat) (r : Slot) : (s.setSlot i r).slots = s.slots.setIfInBounds i r := rfl
@[simp] theorem setDomain_domains (n : Nat) (d : DomainRecord) : (s.setDomain n d).domains = s.domains.setIfInBounds n d := rfl
@[simp] theorem respond_responses (r : Response) : (s.respond r).responses = s.responses ++ [r] := rfl
@[simp] theorem complete_engine (r : Result) : (s.complete r).engine = .idle := rfl
@[simp] theorem complete_result (r : Result) : (s.complete r).result = r := rfl
@[simp] theorem sent_sdoWords (w : Word) : (s.sent w).sdoWords = s.sdoWords ++ [w] := rfl
@[simp] theorem grant_lastGranted (q : Requester) : (s.grant q).lastGranted = q := by cases q <;> rfl
@[simp] theorem grant_searchClaim (q : Requester) : (s.grant q).searchClaim = (s.searchClaim && decide (q ≠ .search)) := by
  cases q <;> simp [State.grant]
@[simp] theorem grant_commandClaim (q : Requester) : (s.grant q).commandClaim = (s.commandClaim && decide (q ≠ .command)) := by
  cases q <;> simp [State.grant]
@[simp] theorem grant_ageingClaim (q : Requester) : (s.grant q).ageingClaim = (s.ageingClaim && decide (q ≠ .ageing)) := by
  cases q <;> simp [State.grant]
@[simp] theorem raiseDevice_deviceSticky (c : DeviceCondition) : (s.raiseDevice c).deviceSticky = s.deviceSticky ||| c.bit := by
  simp [State.raiseDevice]

/-! ### Reading slots and domain records after an update -/

theorem slotAt_congr {s t : State} (h : t.slots = s.slots) (i : Nat) : t.slotAt i = s.slotAt i := by simp [State.slotAt, h]
theorem domainAt_congr {s t : State} (h : t.domains = s.domains) (n : Nat) : t.domainAt n = s.domainAt n := by
  simp [State.domainAt, h]

@[simp] theorem slotAt_setSlot (i j : Nat) (r : Slot) :
    (s.setSlot i r).slotAt j = if i = j ∧ j < 1024 then r else s.slotAt j := by
  unfold State.slotAt State.setSlot
  simp only [Vector.getElem?_setIfInBounds]
  by_cases h : i = j
  · subst h
    by_cases hi : i < 1024 <;> simp [hi]
  · simp [h]

@[simp] theorem domainAt_setDomain (n m : Nat) (d : DomainRecord) :
    (s.setDomain n d).domainAt m = if n = m ∧ m < 16 then d else s.domainAt m := by
  unfold State.domainAt State.setDomain
  simp only [Vector.getElem?_setIfInBounds]
  by_cases h : n = m
  · subst h
    by_cases hn : n < 16 <;> simp [hn]
  · simp [h]

@[simp] theorem slotAt_reset (i : Nat) : State.reset.slotAt i = .free 0 := by
  unfold State.slotAt State.reset
  by_cases h : i < 1024 <;> simp [h]

@[simp] theorem domainAt_reset (n : Nat) : State.reset.domainAt n = .reset := by
  unfold State.domainAt State.reset
  by_cases h : n < 16 <;> simp [h]

@[simp] theorem domainAt_setSlot (i : Nat) (r : Slot) (n : Nat) : (s.setSlot i r).domainAt n = s.domainAt n := domainAt_congr (by simp) n
@[simp] theorem inInit_setSlot (i : Nat) (r : Slot) : (s.setSlot i r).inInit = s.inInit := by simp [State.inInit]
@[simp] theorem slotAt_setDomain (n : Nat) (d : DomainRecord) (i : Nat) : (s.setDomain n d).slotAt i = s.slotAt i := slotAt_congr (by simp) i
@[simp] theorem inInit_setDomain (n : Nat) (d : DomainRecord) : (s.setDomain n d).inInit = s.inInit := by simp [State.inInit]
@[simp] theorem slotAt_respond (r : Response) (i : Nat) : (s.respond r).slotAt i = s.slotAt i := slotAt_congr (by simp) i
@[simp] theorem domainAt_respond (r : Response) (n : Nat) : (s.respond r).domainAt n = s.domainAt n := domainAt_congr (by simp) n
@[simp] theorem inInit_respond (r : Response) : (s.respond r).inInit = s.inInit := by simp [State.inInit]
@[simp] theorem slotAt_complete (r : Result) (i : Nat) : (s.complete r).slotAt i = s.slotAt i := slotAt_congr (by simp) i
@[simp] theorem domainAt_complete (r : Result) (n : Nat) : (s.complete r).domainAt n = s.domainAt n := domainAt_congr (by simp) n
@[simp] theorem slotAt_sent (w : Word) (i : Nat) : (s.sent w).slotAt i = s.slotAt i := slotAt_congr (by simp) i
@[simp] theorem domainAt_sent (w : Word) (n : Nat) : (s.sent w).domainAt n = s.domainAt n := domainAt_congr (by simp) n
@[simp] theorem inInit_sent (w : Word) : (s.sent w).inInit = s.inInit := by simp [State.inInit]
@[simp] theorem slotAt_grant (q : Requester) (i : Nat) : (s.grant q).slotAt i = s.slotAt i := slotAt_congr (by simp) i
@[simp] theorem domainAt_grant (q : Requester) (n : Nat) : (s.grant q).domainAt n = s.domainAt n := domainAt_congr (by simp) n
@[simp] theorem inInit_grant (q : Requester) : (s.grant q).inInit = s.inInit := by simp [State.inInit]
@[simp] theorem slotAt_judgeFrom (b : State) (i : Nat) : (b.judgeFrom s).slotAt i = s.slotAt i := slotAt_congr (by simp) i
@[simp] theorem domainAt_judgeFrom (b : State) (n : Nat) : (b.judgeFrom s).domainAt n = s.domainAt n := domainAt_congr (by simp) n
@[simp] theorem inInit_judgeFrom (b : State) : (b.judgeFrom s).inInit = s.inInit := by simp [State.inInit]
@[simp] theorem slotAt_raiseDevice (c : DeviceCondition) (i : Nat) : (s.raiseDevice c).slotAt i = s.slotAt i := slotAt_congr (by simp) i
@[simp] theorem domainAt_raiseDevice (c : DeviceCondition) (n : Nat) : (s.raiseDevice c).domainAt n = s.domainAt n := domainAt_congr (by simp) n
@[simp] theorem inInit_raiseDevice (c : DeviceCondition) : (s.raiseDevice c).inInit = s.inInit := by simp [State.inInit]
@[simp] theorem slotAt_clearFrameErrorIf (b : Bool) (i : Nat) : (s.clearFrameErrorIf b).slotAt i = s.slotAt i := slotAt_congr (by simp) i
@[simp] theorem domainAt_clearFrameErrorIf (b : Bool) (n : Nat) : (s.clearFrameErrorIf b).domainAt n = s.domainAt n := domainAt_congr (by simp) n
@[simp] theorem inInit_clearFrameErrorIf (b : Bool) : (s.clearFrameErrorIf b).inInit = s.inInit := by simp [State.inInit]
@[simp] theorem domainAt_writeSlotOpt (w : Option (Nat × Slot)) (n : Nat) : (s.writeSlot? w).domainAt n = s.domainAt n := domainAt_congr (by simp) n
@[simp] theorem inInit_writeSlotOpt (w : Option (Nat × Slot)) : (s.writeSlot? w).inInit = s.inInit := by simp [State.inInit]
@[simp] theorem slotAt_fullReset (i : Nat) : s.fullReset.slotAt i = .free 0 := by rw [slotAt_congr (fullReset_slots s), slotAt_reset]
@[simp] theorem domainAt_fullReset (n : Nat) : s.fullReset.domainAt n = .reset := by rw [domainAt_congr (fullReset_domains s), domainAt_reset]
@[simp] theorem inInit_fullReset : s.fullReset.inInit = true := rfl
@[simp] theorem inInit_complete (r : Result) : (s.complete r).inInit = false := rfl

/-! ### writeControl -/

@[simp] theorem writeControl_resetHeld (w : Word) : (State.writeControl w s).resetHeld = s.resetHeld := by simp [State.writeControl]
@[simp] theorem writeControl_linkReset (w : Word) : (State.writeControl w s).linkReset = s.linkReset := by simp [State.writeControl]
@[simp] theorem writeControl_slots (w : Word) : (State.writeControl w s).slots = s.slots := by simp [State.writeControl]
@[simp] theorem writeControl_searchClaim (w : Word) : (State.writeControl w s).searchClaim = s.searchClaim := by simp [State.writeControl]
@[simp] theorem writeControl_commandClaim (w : Word) : (State.writeControl w s).commandClaim = s.commandClaim := by simp [State.writeControl]
@[simp] theorem writeControl_ageingClaim (w : Word) : (State.writeControl w s).ageingClaim = s.ageingClaim := by simp [State.writeControl]
@[simp] theorem writeControl_lastGranted (w : Word) : (State.writeControl w s).lastGranted = s.lastGranted := by simp [State.writeControl]
@[simp] theorem writeControl_domains (w : Word) : (State.writeControl w s).domains = s.domains := by simp [State.writeControl]
@[simp] theorem writeControl_queue (w : Word) : (State.writeControl w s).queue = s.queue := by simp [State.writeControl]
@[simp] theorem writeControl_holding (w : Word) : (State.writeControl w s).holding = s.holding := by simp [State.writeControl]
@[simp] theorem writeControl_ageStep (w : Word) : (State.writeControl w s).ageStep = s.ageStep := by simp [State.writeControl]
@[simp] theorem writeControl_ageInterval (w : Word) : (State.writeControl w s).ageInterval = s.ageInterval := by simp [State.writeControl]
@[simp] theorem writeControl_pendingTicks (w : Word) : (State.writeControl w s).pendingTicks = s.pendingTicks := by simp [State.writeControl]
@[simp] theorem writeControl_walk (w : Word) : (State.writeControl w s).walk = s.walk := by simp [State.writeControl]
@[simp] theorem writeControl_engine (w : Word) : (State.writeControl w s).engine = s.engine := by simp [State.writeControl]
@[simp] theorem writeControl_refused (w : Word) : (State.writeControl w s).refused = s.refused := by simp [State.writeControl]
@[simp] theorem writeControl_deviceSticky (w : Word) : (State.writeControl w s).deviceSticky = s.deviceSticky := by simp [State.writeControl]
@[simp] theorem writeControl_deviceMask (w : Word) : (State.writeControl w s).deviceMask = s.deviceMask := by simp [State.writeControl]
@[simp] theorem writeControl_frameError (w : Word) : (State.writeControl w s).frameError = s.frameError := by simp [State.writeControl]
@[simp] theorem writeControl_frame (w : Word) : (State.writeControl w s).frame = s.frame := by simp [State.writeControl]
@[simp] theorem writeControl_stagingBinding (w : Word) : (State.writeControl w s).stagingBinding = s.stagingBinding := by simp [State.writeControl]
@[simp] theorem writeControl_stagingDomain (w : Word) : (State.writeControl w s).stagingDomain = s.stagingDomain := by simp [State.writeControl]
@[simp] theorem writeControl_bindingView (w : Word) : (State.writeControl w s).bindingView = s.bindingView := by simp [State.writeControl]
@[simp] theorem writeControl_snapshot (w : Word) : (State.writeControl w s).snapshot = s.snapshot := by simp [State.writeControl]
@[simp] theorem writeControl_result (w : Word) : (State.writeControl w s).result = s.result := by simp [State.writeControl]
@[simp] theorem writeControl_responses (w : Word) : (State.writeControl w s).responses = s.responses := by simp [State.writeControl]
@[simp] theorem writeControl_sdoWords (w : Word) : (State.writeControl w s).sdoWords = s.sdoWords := by simp [State.writeControl]
@[simp] theorem writeControl_pending (w : Word) : (State.writeControl w s).pending = s.pending := by simp [State.writeControl]

/-! ### writeAgeStep -/

@[simp] theorem writeAgeStep_resetHeld (w : Word) : (State.writeAgeStep w s).resetHeld = s.resetHeld := rfl
@[simp] theorem writeAgeStep_linkReset (w : Word) : (State.writeAgeStep w s).linkReset = s.linkReset := rfl
@[simp] theorem writeAgeStep_slots (w : Word) : (State.writeAgeStep w s).slots = s.slots := rfl
@[simp] theorem writeAgeStep_searchClaim (w : Word) : (State.writeAgeStep w s).searchClaim = s.searchClaim := rfl
@[simp] theorem writeAgeStep_commandClaim (w : Word) : (State.writeAgeStep w s).commandClaim = s.commandClaim := rfl
@[simp] theorem writeAgeStep_ageingClaim (w : Word) : (State.writeAgeStep w s).ageingClaim = s.ageingClaim := rfl
@[simp] theorem writeAgeStep_lastGranted (w : Word) : (State.writeAgeStep w s).lastGranted = s.lastGranted := rfl
@[simp] theorem writeAgeStep_domains (w : Word) : (State.writeAgeStep w s).domains = s.domains := rfl
@[simp] theorem writeAgeStep_queue (w : Word) : (State.writeAgeStep w s).queue = s.queue := rfl
@[simp] theorem writeAgeStep_linkLevel (w : Word) : (State.writeAgeStep w s).linkLevel = s.linkLevel := rfl
@[simp] theorem writeAgeStep_holding (w : Word) : (State.writeAgeStep w s).holding = s.holding := rfl
@[simp] theorem writeAgeStep_pendingTicks (w : Word) : (State.writeAgeStep w s).pendingTicks = s.pendingTicks := rfl
@[simp] theorem writeAgeStep_walk (w : Word) : (State.writeAgeStep w s).walk = s.walk := rfl
@[simp] theorem writeAgeStep_engine (w : Word) : (State.writeAgeStep w s).engine = s.engine := rfl
@[simp] theorem writeAgeStep_refused (w : Word) : (State.writeAgeStep w s).refused = s.refused := rfl
@[simp] theorem writeAgeStep_attnEnable (w : Word) : (State.writeAgeStep w s).attnEnable = s.attnEnable := rfl
@[simp] theorem writeAgeStep_attnMode (w : Word) : (State.writeAgeStep w s).attnMode = s.attnMode := rfl
@[simp] theorem writeAgeStep_attnPolarity (w : Word) : (State.writeAgeStep w s).attnPolarity = s.attnPolarity := rfl
@[simp] theorem writeAgeStep_pulse (w : Word) : (State.writeAgeStep w s).pulse = s.pulse := rfl
@[simp] theorem writeAgeStep_deviceSticky (w : Word) : (State.writeAgeStep w s).deviceSticky = s.deviceSticky := rfl
@[simp] theorem writeAgeStep_deviceMask (w : Word) : (State.writeAgeStep w s).deviceMask = s.deviceMask := rfl
@[simp] theorem writeAgeStep_summaryStart (w : Word) : (State.writeAgeStep w s).summaryStart = s.summaryStart := rfl
@[simp] theorem writeAgeStep_frameError (w : Word) : (State.writeAgeStep w s).frameError = s.frameError := rfl
@[simp] theorem writeAgeStep_frame (w : Word) : (State.writeAgeStep w s).frame = s.frame := rfl
@[simp] theorem writeAgeStep_stagingBinding (w : Word) : (State.writeAgeStep w s).stagingBinding = s.stagingBinding := rfl
@[simp] theorem writeAgeStep_stagingDomain (w : Word) : (State.writeAgeStep w s).stagingDomain = s.stagingDomain := rfl
@[simp] theorem writeAgeStep_bindingView (w : Word) : (State.writeAgeStep w s).bindingView = s.bindingView := rfl
@[simp] theorem writeAgeStep_snapshot (w : Word) : (State.writeAgeStep w s).snapshot = s.snapshot := rfl
@[simp] theorem writeAgeStep_result (w : Word) : (State.writeAgeStep w s).result = s.result := rfl
@[simp] theorem writeAgeStep_responses (w : Word) : (State.writeAgeStep w s).responses = s.responses := rfl
@[simp] theorem writeAgeStep_sdoWords (w : Word) : (State.writeAgeStep w s).sdoWords = s.sdoWords := rfl
@[simp] theorem writeAgeStep_pending (w : Word) : (State.writeAgeStep w s).pending = s.pending := rfl

/-! ### writeDeviceConditions -/

@[simp] theorem writeDeviceConditions_resetHeld (w : Word) : (State.writeDeviceConditions w s).resetHeld = s.resetHeld := by simp [State.writeDeviceConditions]
@[simp] theorem writeDeviceConditions_linkReset (w : Word) : (State.writeDeviceConditions w s).linkReset = s.linkReset := by simp [State.writeDeviceConditions]
@[simp] theorem writeDeviceConditions_slots (w : Word) : (State.writeDeviceConditions w s).slots = s.slots := by simp [State.writeDeviceConditions]
@[simp] theorem writeDeviceConditions_searchClaim (w : Word) : (State.writeDeviceConditions w s).searchClaim = s.searchClaim := by simp [State.writeDeviceConditions]
@[simp] theorem writeDeviceConditions_commandClaim (w : Word) : (State.writeDeviceConditions w s).commandClaim = s.commandClaim := by simp [State.writeDeviceConditions]
@[simp] theorem writeDeviceConditions_ageingClaim (w : Word) : (State.writeDeviceConditions w s).ageingClaim = s.ageingClaim := by simp [State.writeDeviceConditions]
@[simp] theorem writeDeviceConditions_lastGranted (w : Word) : (State.writeDeviceConditions w s).lastGranted = s.lastGranted := by simp [State.writeDeviceConditions]
@[simp] theorem writeDeviceConditions_domains (w : Word) : (State.writeDeviceConditions w s).domains = s.domains := by simp [State.writeDeviceConditions]
@[simp] theorem writeDeviceConditions_queue (w : Word) : (State.writeDeviceConditions w s).queue = s.queue := by simp [State.writeDeviceConditions]
@[simp] theorem writeDeviceConditions_linkLevel (w : Word) : (State.writeDeviceConditions w s).linkLevel = s.linkLevel := by simp [State.writeDeviceConditions]
@[simp] theorem writeDeviceConditions_holding (w : Word) : (State.writeDeviceConditions w s).holding = s.holding := by simp [State.writeDeviceConditions]
@[simp] theorem writeDeviceConditions_ageStep (w : Word) : (State.writeDeviceConditions w s).ageStep = s.ageStep := by simp [State.writeDeviceConditions]
@[simp] theorem writeDeviceConditions_ageInterval (w : Word) : (State.writeDeviceConditions w s).ageInterval = s.ageInterval := by simp [State.writeDeviceConditions]
@[simp] theorem writeDeviceConditions_pendingTicks (w : Word) : (State.writeDeviceConditions w s).pendingTicks = s.pendingTicks := by simp [State.writeDeviceConditions]
@[simp] theorem writeDeviceConditions_walk (w : Word) : (State.writeDeviceConditions w s).walk = s.walk := by simp [State.writeDeviceConditions]
@[simp] theorem writeDeviceConditions_engine (w : Word) : (State.writeDeviceConditions w s).engine = s.engine := by simp [State.writeDeviceConditions]
@[simp] theorem writeDeviceConditions_refused (w : Word) : (State.writeDeviceConditions w s).refused = s.refused := by simp [State.writeDeviceConditions]
@[simp] theorem writeDeviceConditions_attnEnable (w : Word) : (State.writeDeviceConditions w s).attnEnable = s.attnEnable := by simp [State.writeDeviceConditions]
@[simp] theorem writeDeviceConditions_attnMode (w : Word) : (State.writeDeviceConditions w s).attnMode = s.attnMode := by simp [State.writeDeviceConditions]
@[simp] theorem writeDeviceConditions_attnPolarity (w : Word) : (State.writeDeviceConditions w s).attnPolarity = s.attnPolarity := by simp [State.writeDeviceConditions]
@[simp] theorem writeDeviceConditions_deviceMask (w : Word) : (State.writeDeviceConditions w s).deviceMask = s.deviceMask := by simp [State.writeDeviceConditions]
@[simp] theorem writeDeviceConditions_summaryStart (w : Word) : (State.writeDeviceConditions w s).summaryStart = s.summaryStart := by simp [State.writeDeviceConditions]
@[simp] theorem writeDeviceConditions_frameError (w : Word) : (State.writeDeviceConditions w s).frameError = s.frameError := by simp [State.writeDeviceConditions]
@[simp] theorem writeDeviceConditions_frame (w : Word) : (State.writeDeviceConditions w s).frame = s.frame := by simp [State.writeDeviceConditions]
@[simp] theorem writeDeviceConditions_stagingBinding (w : Word) : (State.writeDeviceConditions w s).stagingBinding = s.stagingBinding := by simp [State.writeDeviceConditions]
@[simp] theorem writeDeviceConditions_stagingDomain (w : Word) : (State.writeDeviceConditions w s).stagingDomain = s.stagingDomain := by simp [State.writeDeviceConditions]
@[simp] theorem writeDeviceConditions_bindingView (w : Word) : (State.writeDeviceConditions w s).bindingView = s.bindingView := by simp [State.writeDeviceConditions]
@[simp] theorem writeDeviceConditions_snapshot (w : Word) : (State.writeDeviceConditions w s).snapshot = s.snapshot := by simp [State.writeDeviceConditions]
@[simp] theorem writeDeviceConditions_result (w : Word) : (State.writeDeviceConditions w s).result = s.result := by simp [State.writeDeviceConditions]
@[simp] theorem writeDeviceConditions_responses (w : Word) : (State.writeDeviceConditions w s).responses = s.responses := by simp [State.writeDeviceConditions]
@[simp] theorem writeDeviceConditions_sdoWords (w : Word) : (State.writeDeviceConditions w s).sdoWords = s.sdoWords := by simp [State.writeDeviceConditions]
@[simp] theorem writeDeviceConditions_pending (w : Word) : (State.writeDeviceConditions w s).pending = s.pending := by simp [State.writeDeviceConditions]

/-! ### writeDeviceMask -/

@[simp] theorem writeDeviceMask_resetHeld (w : Word) : (State.writeDeviceMask w s).resetHeld = s.resetHeld := by simp [State.writeDeviceMask]
@[simp] theorem writeDeviceMask_linkReset (w : Word) : (State.writeDeviceMask w s).linkReset = s.linkReset := by simp [State.writeDeviceMask]
@[simp] theorem writeDeviceMask_slots (w : Word) : (State.writeDeviceMask w s).slots = s.slots := by simp [State.writeDeviceMask]
@[simp] theorem writeDeviceMask_searchClaim (w : Word) : (State.writeDeviceMask w s).searchClaim = s.searchClaim := by simp [State.writeDeviceMask]
@[simp] theorem writeDeviceMask_commandClaim (w : Word) : (State.writeDeviceMask w s).commandClaim = s.commandClaim := by simp [State.writeDeviceMask]
@[simp] theorem writeDeviceMask_ageingClaim (w : Word) : (State.writeDeviceMask w s).ageingClaim = s.ageingClaim := by simp [State.writeDeviceMask]
@[simp] theorem writeDeviceMask_lastGranted (w : Word) : (State.writeDeviceMask w s).lastGranted = s.lastGranted := by simp [State.writeDeviceMask]
@[simp] theorem writeDeviceMask_domains (w : Word) : (State.writeDeviceMask w s).domains = s.domains := by simp [State.writeDeviceMask]
@[simp] theorem writeDeviceMask_queue (w : Word) : (State.writeDeviceMask w s).queue = s.queue := by simp [State.writeDeviceMask]
@[simp] theorem writeDeviceMask_linkLevel (w : Word) : (State.writeDeviceMask w s).linkLevel = s.linkLevel := by simp [State.writeDeviceMask]
@[simp] theorem writeDeviceMask_holding (w : Word) : (State.writeDeviceMask w s).holding = s.holding := by simp [State.writeDeviceMask]
@[simp] theorem writeDeviceMask_ageStep (w : Word) : (State.writeDeviceMask w s).ageStep = s.ageStep := by simp [State.writeDeviceMask]
@[simp] theorem writeDeviceMask_ageInterval (w : Word) : (State.writeDeviceMask w s).ageInterval = s.ageInterval := by simp [State.writeDeviceMask]
@[simp] theorem writeDeviceMask_pendingTicks (w : Word) : (State.writeDeviceMask w s).pendingTicks = s.pendingTicks := by simp [State.writeDeviceMask]
@[simp] theorem writeDeviceMask_walk (w : Word) : (State.writeDeviceMask w s).walk = s.walk := by simp [State.writeDeviceMask]
@[simp] theorem writeDeviceMask_engine (w : Word) : (State.writeDeviceMask w s).engine = s.engine := by simp [State.writeDeviceMask]
@[simp] theorem writeDeviceMask_refused (w : Word) : (State.writeDeviceMask w s).refused = s.refused := by simp [State.writeDeviceMask]
@[simp] theorem writeDeviceMask_attnEnable (w : Word) : (State.writeDeviceMask w s).attnEnable = s.attnEnable := by simp [State.writeDeviceMask]
@[simp] theorem writeDeviceMask_attnMode (w : Word) : (State.writeDeviceMask w s).attnMode = s.attnMode := by simp [State.writeDeviceMask]
@[simp] theorem writeDeviceMask_attnPolarity (w : Word) : (State.writeDeviceMask w s).attnPolarity = s.attnPolarity := by simp [State.writeDeviceMask]
@[simp] theorem writeDeviceMask_deviceSticky (w : Word) : (State.writeDeviceMask w s).deviceSticky = s.deviceSticky := by simp [State.writeDeviceMask]
@[simp] theorem writeDeviceMask_summaryStart (w : Word) : (State.writeDeviceMask w s).summaryStart = s.summaryStart := by simp [State.writeDeviceMask]
@[simp] theorem writeDeviceMask_frameError (w : Word) : (State.writeDeviceMask w s).frameError = s.frameError := by simp [State.writeDeviceMask]
@[simp] theorem writeDeviceMask_frame (w : Word) : (State.writeDeviceMask w s).frame = s.frame := by simp [State.writeDeviceMask]
@[simp] theorem writeDeviceMask_stagingBinding (w : Word) : (State.writeDeviceMask w s).stagingBinding = s.stagingBinding := by simp [State.writeDeviceMask]
@[simp] theorem writeDeviceMask_stagingDomain (w : Word) : (State.writeDeviceMask w s).stagingDomain = s.stagingDomain := by simp [State.writeDeviceMask]
@[simp] theorem writeDeviceMask_bindingView (w : Word) : (State.writeDeviceMask w s).bindingView = s.bindingView := by simp [State.writeDeviceMask]
@[simp] theorem writeDeviceMask_snapshot (w : Word) : (State.writeDeviceMask w s).snapshot = s.snapshot := by simp [State.writeDeviceMask]
@[simp] theorem writeDeviceMask_result (w : Word) : (State.writeDeviceMask w s).result = s.result := by simp [State.writeDeviceMask]
@[simp] theorem writeDeviceMask_responses (w : Word) : (State.writeDeviceMask w s).responses = s.responses := by simp [State.writeDeviceMask]
@[simp] theorem writeDeviceMask_sdoWords (w : Word) : (State.writeDeviceMask w s).sdoWords = s.sdoWords := by simp [State.writeDeviceMask]
@[simp] theorem writeDeviceMask_pending (w : Word) : (State.writeDeviceMask w s).pending = s.pending := by simp [State.writeDeviceMask]

/-! ### writeWindow -/

@[simp] theorem writeWindow_resetHeld (x : Byte) (i : Nat) (w : Word) : (s.writeWindow x i w).resetHeld = s.resetHeld := by unfold State.writeWindow; split; rfl; split <;> rfl
@[simp] theorem writeWindow_linkReset (x : Byte) (i : Nat) (w : Word) : (s.writeWindow x i w).linkReset = s.linkReset := by unfold State.writeWindow; split; rfl; split <;> rfl
@[simp] theorem writeWindow_slots (x : Byte) (i : Nat) (w : Word) : (s.writeWindow x i w).slots = s.slots := by unfold State.writeWindow; split; rfl; split <;> rfl
@[simp] theorem writeWindow_searchClaim (x : Byte) (i : Nat) (w : Word) : (s.writeWindow x i w).searchClaim = s.searchClaim := by unfold State.writeWindow; split; rfl; split <;> rfl
@[simp] theorem writeWindow_commandClaim (x : Byte) (i : Nat) (w : Word) : (s.writeWindow x i w).commandClaim = s.commandClaim := by unfold State.writeWindow; split; rfl; split <;> rfl
@[simp] theorem writeWindow_ageingClaim (x : Byte) (i : Nat) (w : Word) : (s.writeWindow x i w).ageingClaim = s.ageingClaim := by unfold State.writeWindow; split; rfl; split <;> rfl
@[simp] theorem writeWindow_lastGranted (x : Byte) (i : Nat) (w : Word) : (s.writeWindow x i w).lastGranted = s.lastGranted := by unfold State.writeWindow; split; rfl; split <;> rfl
@[simp] theorem writeWindow_domains (x : Byte) (i : Nat) (w : Word) : (s.writeWindow x i w).domains = s.domains := by unfold State.writeWindow; split; rfl; split <;> rfl
@[simp] theorem writeWindow_queue (x : Byte) (i : Nat) (w : Word) : (s.writeWindow x i w).queue = s.queue := by unfold State.writeWindow; split; rfl; split <;> rfl
@[simp] theorem writeWindow_linkLevel (x : Byte) (i : Nat) (w : Word) : (s.writeWindow x i w).linkLevel = s.linkLevel := by unfold State.writeWindow; split; rfl; split <;> rfl
@[simp] theorem writeWindow_holding (x : Byte) (i : Nat) (w : Word) : (s.writeWindow x i w).holding = s.holding := by unfold State.writeWindow; split; rfl; split <;> rfl
@[simp] theorem writeWindow_ageStep (x : Byte) (i : Nat) (w : Word) : (s.writeWindow x i w).ageStep = s.ageStep := by unfold State.writeWindow; split; rfl; split <;> rfl
@[simp] theorem writeWindow_ageInterval (x : Byte) (i : Nat) (w : Word) : (s.writeWindow x i w).ageInterval = s.ageInterval := by unfold State.writeWindow; split; rfl; split <;> rfl
@[simp] theorem writeWindow_pendingTicks (x : Byte) (i : Nat) (w : Word) : (s.writeWindow x i w).pendingTicks = s.pendingTicks := by unfold State.writeWindow; split; rfl; split <;> rfl
@[simp] theorem writeWindow_walk (x : Byte) (i : Nat) (w : Word) : (s.writeWindow x i w).walk = s.walk := by unfold State.writeWindow; split; rfl; split <;> rfl
@[simp] theorem writeWindow_engine (x : Byte) (i : Nat) (w : Word) : (s.writeWindow x i w).engine = s.engine := by unfold State.writeWindow; split; rfl; split <;> rfl
@[simp] theorem writeWindow_refused (x : Byte) (i : Nat) (w : Word) : (s.writeWindow x i w).refused = s.refused := by unfold State.writeWindow; split; rfl; split <;> rfl
@[simp] theorem writeWindow_attnEnable (x : Byte) (i : Nat) (w : Word) : (s.writeWindow x i w).attnEnable = s.attnEnable := by unfold State.writeWindow; split; rfl; split <;> rfl
@[simp] theorem writeWindow_attnMode (x : Byte) (i : Nat) (w : Word) : (s.writeWindow x i w).attnMode = s.attnMode := by unfold State.writeWindow; split; rfl; split <;> rfl
@[simp] theorem writeWindow_attnPolarity (x : Byte) (i : Nat) (w : Word) : (s.writeWindow x i w).attnPolarity = s.attnPolarity := by unfold State.writeWindow; split; rfl; split <;> rfl
@[simp] theorem writeWindow_pulse (x : Byte) (i : Nat) (w : Word) : (s.writeWindow x i w).pulse = s.pulse := by unfold State.writeWindow; split; rfl; split <;> rfl
@[simp] theorem writeWindow_deviceSticky (x : Byte) (i : Nat) (w : Word) : (s.writeWindow x i w).deviceSticky = s.deviceSticky := by unfold State.writeWindow; split; rfl; split <;> rfl
@[simp] theorem writeWindow_deviceMask (x : Byte) (i : Nat) (w : Word) : (s.writeWindow x i w).deviceMask = s.deviceMask := by unfold State.writeWindow; split; rfl; split <;> rfl
@[simp] theorem writeWindow_summaryStart (x : Byte) (i : Nat) (w : Word) : (s.writeWindow x i w).summaryStart = s.summaryStart := by unfold State.writeWindow; split; rfl; split <;> rfl
@[simp] theorem writeWindow_frameError (x : Byte) (i : Nat) (w : Word) : (s.writeWindow x i w).frameError = s.frameError := by unfold State.writeWindow; split; rfl; split <;> rfl
@[simp] theorem writeWindow_frame (x : Byte) (i : Nat) (w : Word) : (s.writeWindow x i w).frame = s.frame := by unfold State.writeWindow; split; rfl; split <;> rfl
@[simp] theorem writeWindow_bindingView (x : Byte) (i : Nat) (w : Word) : (s.writeWindow x i w).bindingView = s.bindingView := by unfold State.writeWindow; split; rfl; split <;> rfl
@[simp] theorem writeWindow_snapshot (x : Byte) (i : Nat) (w : Word) : (s.writeWindow x i w).snapshot = s.snapshot := by unfold State.writeWindow; split; rfl; split <;> rfl
@[simp] theorem writeWindow_result (x : Byte) (i : Nat) (w : Word) : (s.writeWindow x i w).result = s.result := by unfold State.writeWindow; split; rfl; split <;> rfl
@[simp] theorem writeWindow_responses (x : Byte) (i : Nat) (w : Word) : (s.writeWindow x i w).responses = s.responses := by unfold State.writeWindow; split; rfl; split <;> rfl
@[simp] theorem writeWindow_sdoWords (x : Byte) (i : Nat) (w : Word) : (s.writeWindow x i w).sdoWords = s.sdoWords := by unfold State.writeWindow; split; rfl; split <;> rfl
@[simp] theorem writeWindow_pending (x : Byte) (i : Nat) (w : Word) : (s.writeWindow x i w).pending = s.pending := by unfold State.writeWindow; split; rfl; split <;> rfl

/-! ### domainDone -/

@[simp] theorem domainDone_resetHeld (n : Nat) (d : DomainRecord) : (s.domainDone n d).resetHeld = s.resetHeld := by simp [State.domainDone]
@[simp] theorem domainDone_linkReset (n : Nat) (d : DomainRecord) : (s.domainDone n d).linkReset = s.linkReset := by simp [State.domainDone]
@[simp] theorem domainDone_slots (n : Nat) (d : DomainRecord) : (s.domainDone n d).slots = s.slots := by simp [State.domainDone]
@[simp] theorem domainDone_searchClaim (n : Nat) (d : DomainRecord) : (s.domainDone n d).searchClaim = s.searchClaim := by simp [State.domainDone]
@[simp] theorem domainDone_commandClaim (n : Nat) (d : DomainRecord) : (s.domainDone n d).commandClaim = s.commandClaim := by simp [State.domainDone]
@[simp] theorem domainDone_ageingClaim (n : Nat) (d : DomainRecord) : (s.domainDone n d).ageingClaim = s.ageingClaim := by simp [State.domainDone]
@[simp] theorem domainDone_lastGranted (n : Nat) (d : DomainRecord) : (s.domainDone n d).lastGranted = s.lastGranted := by simp [State.domainDone]
@[simp] theorem domainDone_queue (n : Nat) (d : DomainRecord) : (s.domainDone n d).queue = s.queue := by simp [State.domainDone]
@[simp] theorem domainDone_linkLevel (n : Nat) (d : DomainRecord) : (s.domainDone n d).linkLevel = s.linkLevel := by simp [State.domainDone]
@[simp] theorem domainDone_holding (n : Nat) (d : DomainRecord) : (s.domainDone n d).holding = s.holding := by simp [State.domainDone]
@[simp] theorem domainDone_ageStep (n : Nat) (d : DomainRecord) : (s.domainDone n d).ageStep = s.ageStep := by simp [State.domainDone]
@[simp] theorem domainDone_ageInterval (n : Nat) (d : DomainRecord) : (s.domainDone n d).ageInterval = s.ageInterval := by simp [State.domainDone]
@[simp] theorem domainDone_pendingTicks (n : Nat) (d : DomainRecord) : (s.domainDone n d).pendingTicks = s.pendingTicks := by simp [State.domainDone]
@[simp] theorem domainDone_walk (n : Nat) (d : DomainRecord) : (s.domainDone n d).walk = s.walk := by simp [State.domainDone]
@[simp] theorem domainDone_refused (n : Nat) (d : DomainRecord) : (s.domainDone n d).refused = s.refused := by simp [State.domainDone]
@[simp] theorem domainDone_attnEnable (n : Nat) (d : DomainRecord) : (s.domainDone n d).attnEnable = s.attnEnable := by simp [State.domainDone]
@[simp] theorem domainDone_attnMode (n : Nat) (d : DomainRecord) : (s.domainDone n d).attnMode = s.attnMode := by simp [State.domainDone]
@[simp] theorem domainDone_attnPolarity (n : Nat) (d : DomainRecord) : (s.domainDone n d).attnPolarity = s.attnPolarity := by simp [State.domainDone]
@[simp] theorem domainDone_deviceSticky (n : Nat) (d : DomainRecord) : (s.domainDone n d).deviceSticky = s.deviceSticky := by simp [State.domainDone]
@[simp] theorem domainDone_deviceMask (n : Nat) (d : DomainRecord) : (s.domainDone n d).deviceMask = s.deviceMask := by simp [State.domainDone]
@[simp] theorem domainDone_summaryStart (n : Nat) (d : DomainRecord) : (s.domainDone n d).summaryStart = s.summaryStart := by simp [State.domainDone]
@[simp] theorem domainDone_frameError (n : Nat) (d : DomainRecord) : (s.domainDone n d).frameError = s.frameError := by simp [State.domainDone]
@[simp] theorem domainDone_frame (n : Nat) (d : DomainRecord) : (s.domainDone n d).frame = s.frame := by simp [State.domainDone]
@[simp] theorem domainDone_stagingBinding (n : Nat) (d : DomainRecord) : (s.domainDone n d).stagingBinding = s.stagingBinding := by simp [State.domainDone]
@[simp] theorem domainDone_stagingDomain (n : Nat) (d : DomainRecord) : (s.domainDone n d).stagingDomain = s.stagingDomain := by simp [State.domainDone]
@[simp] theorem domainDone_bindingView (n : Nat) (d : DomainRecord) : (s.domainDone n d).bindingView = s.bindingView := by simp [State.domainDone]
@[simp] theorem domainDone_snapshot (n : Nat) (d : DomainRecord) : (s.domainDone n d).snapshot = s.snapshot := by simp [State.domainDone]
@[simp] theorem domainDone_responses (n : Nat) (d : DomainRecord) : (s.domainDone n d).responses = s.responses := by simp [State.domainDone]
@[simp] theorem domainDone_sdoWords (n : Nat) (d : DomainRecord) : (s.domainDone n d).sdoWords = s.sdoWords := by simp [State.domainDone]
@[simp] theorem domainDone_pending (n : Nat) (d : DomainRecord) : (s.domainDone n d).pending = s.pending := by simp [State.domainDone]

/-! ### passDone -/

@[simp] theorem passDone_resetHeld (n : Nat) (k : ResultCode) (h : Handle) (c : Option Cursor) (m : Nat) : (s.passDone n k h c m).resetHeld = s.resetHeld := rfl
@[simp] theorem passDone_linkReset (n : Nat) (k : ResultCode) (h : Handle) (c : Option Cursor) (m : Nat) : (s.passDone n k h c m).linkReset = s.linkReset := rfl
@[simp] theorem passDone_slots (n : Nat) (k : ResultCode) (h : Handle) (c : Option Cursor) (m : Nat) : (s.passDone n k h c m).slots = s.slots := rfl
@[simp] theorem passDone_searchClaim (n : Nat) (k : ResultCode) (h : Handle) (c : Option Cursor) (m : Nat) : (s.passDone n k h c m).searchClaim = s.searchClaim := rfl
@[simp] theorem passDone_commandClaim (n : Nat) (k : ResultCode) (h : Handle) (c : Option Cursor) (m : Nat) : (s.passDone n k h c m).commandClaim = s.commandClaim := rfl
@[simp] theorem passDone_ageingClaim (n : Nat) (k : ResultCode) (h : Handle) (c : Option Cursor) (m : Nat) : (s.passDone n k h c m).ageingClaim = s.ageingClaim := rfl
@[simp] theorem passDone_lastGranted (n : Nat) (k : ResultCode) (h : Handle) (c : Option Cursor) (m : Nat) : (s.passDone n k h c m).lastGranted = s.lastGranted := rfl
@[simp] theorem passDone_queue (n : Nat) (k : ResultCode) (h : Handle) (c : Option Cursor) (m : Nat) : (s.passDone n k h c m).queue = s.queue := rfl
@[simp] theorem passDone_linkLevel (n : Nat) (k : ResultCode) (h : Handle) (c : Option Cursor) (m : Nat) : (s.passDone n k h c m).linkLevel = s.linkLevel := rfl
@[simp] theorem passDone_holding (n : Nat) (k : ResultCode) (h : Handle) (c : Option Cursor) (m : Nat) : (s.passDone n k h c m).holding = s.holding := rfl
@[simp] theorem passDone_ageStep (n : Nat) (k : ResultCode) (h : Handle) (c : Option Cursor) (m : Nat) : (s.passDone n k h c m).ageStep = s.ageStep := rfl
@[simp] theorem passDone_ageInterval (n : Nat) (k : ResultCode) (h : Handle) (c : Option Cursor) (m : Nat) : (s.passDone n k h c m).ageInterval = s.ageInterval := rfl
@[simp] theorem passDone_pendingTicks (n : Nat) (k : ResultCode) (h : Handle) (c : Option Cursor) (m : Nat) : (s.passDone n k h c m).pendingTicks = s.pendingTicks := rfl
@[simp] theorem passDone_walk (n : Nat) (k : ResultCode) (h : Handle) (c : Option Cursor) (m : Nat) : (s.passDone n k h c m).walk = s.walk := rfl
@[simp] theorem passDone_refused (n : Nat) (k : ResultCode) (h : Handle) (c : Option Cursor) (m : Nat) : (s.passDone n k h c m).refused = s.refused := rfl
@[simp] theorem passDone_attnEnable (n : Nat) (k : ResultCode) (h : Handle) (c : Option Cursor) (m : Nat) : (s.passDone n k h c m).attnEnable = s.attnEnable := rfl
@[simp] theorem passDone_attnMode (n : Nat) (k : ResultCode) (h : Handle) (c : Option Cursor) (m : Nat) : (s.passDone n k h c m).attnMode = s.attnMode := rfl
@[simp] theorem passDone_attnPolarity (n : Nat) (k : ResultCode) (h : Handle) (c : Option Cursor) (m : Nat) : (s.passDone n k h c m).attnPolarity = s.attnPolarity := rfl
@[simp] theorem passDone_pulse (n : Nat) (k : ResultCode) (h : Handle) (c : Option Cursor) (m : Nat) : (s.passDone n k h c m).pulse = s.pulse := rfl
@[simp] theorem passDone_deviceSticky (n : Nat) (k : ResultCode) (h : Handle) (c : Option Cursor) (m : Nat) : (s.passDone n k h c m).deviceSticky = s.deviceSticky := rfl
@[simp] theorem passDone_deviceMask (n : Nat) (k : ResultCode) (h : Handle) (c : Option Cursor) (m : Nat) : (s.passDone n k h c m).deviceMask = s.deviceMask := rfl
@[simp] theorem passDone_summaryStart (n : Nat) (k : ResultCode) (h : Handle) (c : Option Cursor) (m : Nat) : (s.passDone n k h c m).summaryStart = s.summaryStart := rfl
@[simp] theorem passDone_frameError (n : Nat) (k : ResultCode) (h : Handle) (c : Option Cursor) (m : Nat) : (s.passDone n k h c m).frameError = s.frameError := rfl
@[simp] theorem passDone_frame (n : Nat) (k : ResultCode) (h : Handle) (c : Option Cursor) (m : Nat) : (s.passDone n k h c m).frame = s.frame := rfl
@[simp] theorem passDone_stagingBinding (n : Nat) (k : ResultCode) (h : Handle) (c : Option Cursor) (m : Nat) : (s.passDone n k h c m).stagingBinding = s.stagingBinding := rfl
@[simp] theorem passDone_stagingDomain (n : Nat) (k : ResultCode) (h : Handle) (c : Option Cursor) (m : Nat) : (s.passDone n k h c m).stagingDomain = s.stagingDomain := rfl
@[simp] theorem passDone_bindingView (n : Nat) (k : ResultCode) (h : Handle) (c : Option Cursor) (m : Nat) : (s.passDone n k h c m).bindingView = s.bindingView := rfl
@[simp] theorem passDone_snapshot (n : Nat) (k : ResultCode) (h : Handle) (c : Option Cursor) (m : Nat) : (s.passDone n k h c m).snapshot = s.snapshot := rfl
@[simp] theorem passDone_responses (n : Nat) (k : ResultCode) (h : Handle) (c : Option Cursor) (m : Nat) : (s.passDone n k h c m).responses = s.responses := rfl
@[simp] theorem passDone_sdoWords (n : Nat) (k : ResultCode) (h : Handle) (c : Option Cursor) (m : Nat) : (s.passDone n k h c m).sdoWords = s.sdoWords := rfl
@[simp] theorem passDone_pending (n : Nat) (k : ResultCode) (h : Handle) (c : Option Cursor) (m : Nat) : (s.passDone n k h c m).pending = s.pending := rfl

/-! ### examineNext -/

@[simp] theorem examineNext_resetHeld (f : InFlight) (i : Nat) : (s.examineNext f i).resetHeld = s.resetHeld := by simp only [State.examineNext]
@[simp] theorem examineNext_linkReset (f : InFlight) (i : Nat) : (s.examineNext f i).linkReset = s.linkReset := by simp only [State.examineNext]
@[simp] theorem examineNext_slots (f : InFlight) (i : Nat) : (s.examineNext f i).slots = s.slots := by simp only [State.examineNext]
@[simp] theorem examineNext_searchClaim (f : InFlight) (i : Nat) : (s.examineNext f i).searchClaim = s.searchClaim := by simp only [State.examineNext]
@[simp] theorem examineNext_ageingClaim (f : InFlight) (i : Nat) : (s.examineNext f i).ageingClaim = s.ageingClaim := by simp only [State.examineNext]
@[simp] theorem examineNext_lastGranted (f : InFlight) (i : Nat) : (s.examineNext f i).lastGranted = s.lastGranted := by simp only [State.examineNext]
@[simp] theorem examineNext_domains (f : InFlight) (i : Nat) : (s.examineNext f i).domains = s.domains := by simp only [State.examineNext]
@[simp] theorem examineNext_queue (f : InFlight) (i : Nat) : (s.examineNext f i).queue = s.queue := by simp only [State.examineNext]
@[simp] theorem examineNext_linkLevel (f : InFlight) (i : Nat) : (s.examineNext f i).linkLevel = s.linkLevel := by simp only [State.examineNext]
@[simp] theorem examineNext_holding (f : InFlight) (i : Nat) : (s.examineNext f i).holding = s.holding := by simp only [State.examineNext]
@[simp] theorem examineNext_ageStep (f : InFlight) (i : Nat) : (s.examineNext f i).ageStep = s.ageStep := by simp only [State.examineNext]
@[simp] theorem examineNext_ageInterval (f : InFlight) (i : Nat) : (s.examineNext f i).ageInterval = s.ageInterval := by simp only [State.examineNext]
@[simp] theorem examineNext_pendingTicks (f : InFlight) (i : Nat) : (s.examineNext f i).pendingTicks = s.pendingTicks := by simp only [State.examineNext]
@[simp] theorem examineNext_walk (f : InFlight) (i : Nat) : (s.examineNext f i).walk = s.walk := by simp only [State.examineNext]
@[simp] theorem examineNext_refused (f : InFlight) (i : Nat) : (s.examineNext f i).refused = s.refused := by simp only [State.examineNext]
@[simp] theorem examineNext_attnEnable (f : InFlight) (i : Nat) : (s.examineNext f i).attnEnable = s.attnEnable := by simp only [State.examineNext]
@[simp] theorem examineNext_attnMode (f : InFlight) (i : Nat) : (s.examineNext f i).attnMode = s.attnMode := by simp only [State.examineNext]
@[simp] theorem examineNext_attnPolarity (f : InFlight) (i : Nat) : (s.examineNext f i).attnPolarity = s.attnPolarity := by simp only [State.examineNext]
@[simp] theorem examineNext_pulse (f : InFlight) (i : Nat) : (s.examineNext f i).pulse = s.pulse := by simp only [State.examineNext]
@[simp] theorem examineNext_deviceSticky (f : InFlight) (i : Nat) : (s.examineNext f i).deviceSticky = s.deviceSticky := by simp only [State.examineNext]
@[simp] theorem examineNext_deviceMask (f : InFlight) (i : Nat) : (s.examineNext f i).deviceMask = s.deviceMask := by simp only [State.examineNext]
@[simp] theorem examineNext_summaryStart (f : InFlight) (i : Nat) : (s.examineNext f i).summaryStart = s.summaryStart := by simp only [State.examineNext]
@[simp] theorem examineNext_frameError (f : InFlight) (i : Nat) : (s.examineNext f i).frameError = s.frameError := by simp only [State.examineNext]
@[simp] theorem examineNext_frame (f : InFlight) (i : Nat) : (s.examineNext f i).frame = s.frame := by simp only [State.examineNext]
@[simp] theorem examineNext_stagingBinding (f : InFlight) (i : Nat) : (s.examineNext f i).stagingBinding = s.stagingBinding := by simp only [State.examineNext]
@[simp] theorem examineNext_stagingDomain (f : InFlight) (i : Nat) : (s.examineNext f i).stagingDomain = s.stagingDomain := by simp only [State.examineNext]
@[simp] theorem examineNext_bindingView (f : InFlight) (i : Nat) : (s.examineNext f i).bindingView = s.bindingView := by simp only [State.examineNext]
@[simp] theorem examineNext_snapshot (f : InFlight) (i : Nat) : (s.examineNext f i).snapshot = s.snapshot := by simp only [State.examineNext]
@[simp] theorem examineNext_result (f : InFlight) (i : Nat) : (s.examineNext f i).result = s.result := by simp only [State.examineNext]
@[simp] theorem examineNext_responses (f : InFlight) (i : Nat) : (s.examineNext f i).responses = s.responses := by simp only [State.examineNext]
@[simp] theorem examineNext_sdoWords (f : InFlight) (i : Nat) : (s.examineNext f i).sdoWords = s.sdoWords := by simp only [State.examineNext]
@[simp] theorem examineNext_pending (f : InFlight) (i : Nat) : (s.examineNext f i).pending = s.pending := by simp only [State.examineNext]

@[simp] theorem domainDone_domains (n : Nat) (d : DomainRecord) : (s.domainDone n d).domains = s.domains.setIfInBounds n d := by
  simp [State.domainDone, State.setDomain]
@[simp] theorem domainDone_engine (n : Nat) (d : DomainRecord) : (s.domainDone n d).engine = .idle := by
  simp [State.domainDone]
@[simp] theorem domainDone_result (n : Nat) (d : DomainRecord) : (s.domainDone n d).result = .plain .done := by
  simp [State.domainDone]
@[simp] theorem passDone_engine (n : Nat) (k : ResultCode) (h : Handle) (c : Option Cursor) (m : Nat) :
    (s.passDone n k h c m).engine = .idle := rfl
@[simp] theorem passDone_result (n : Nat) (k : ResultCode) (h : Handle) (c : Option Cursor) (m : Nat) :
    (s.passDone n k h c m).result = { code := k, slot := h.slot, gen := h.gen, cursor := c, count := m } := rfl
@[simp] theorem passDone_domains (n : Nat) (k : ResultCode) (h : Handle) (c : Option Cursor) (m : Nat) :
    (s.passDone n k h c m).domains = s.domains.setIfInBounds n { s.domainAt n with cursor := c } := rfl

@[simp] theorem slotAt_writeControl (w : Word) (i : Nat) : (State.writeControl w s).slotAt i = s.slotAt i := slotAt_congr (by simp) i
@[simp] theorem domainAt_writeControl (w : Word) (n : Nat) : (State.writeControl w s).domainAt n = s.domainAt n := domainAt_congr (by simp) n
@[simp] theorem inInit_writeControl (w : Word) : (State.writeControl w s).inInit = s.inInit := by simp [State.inInit]
@[simp] theorem slotAt_writeAgeStep (w : Word) (i : Nat) : (State.writeAgeStep w s).slotAt i = s.slotAt i := slotAt_congr (by simp) i
@[simp] theorem domainAt_writeAgeStep (w : Word) (n : Nat) : (State.writeAgeStep w s).domainAt n = s.domainAt n := domainAt_congr (by simp) n
@[simp] theorem inInit_writeAgeStep (w : Word) : (State.writeAgeStep w s).inInit = s.inInit := by simp [State.inInit]
@[simp] theorem slotAt_writeDeviceConditions (w : Word) (i : Nat) : (State.writeDeviceConditions w s).slotAt i = s.slotAt i := slotAt_congr (by simp) i
@[simp] theorem domainAt_writeDeviceConditions (w : Word) (n : Nat) : (State.writeDeviceConditions w s).domainAt n = s.domainAt n := domainAt_congr (by simp) n
@[simp] theorem inInit_writeDeviceConditions (w : Word) : (State.writeDeviceConditions w s).inInit = s.inInit := by simp [State.inInit]
@[simp] theorem slotAt_writeDeviceMask (w : Word) (i : Nat) : (State.writeDeviceMask w s).slotAt i = s.slotAt i := slotAt_congr (by simp) i
@[simp] theorem domainAt_writeDeviceMask (w : Word) (n : Nat) : (State.writeDeviceMask w s).domainAt n = s.domainAt n := domainAt_congr (by simp) n
@[simp] theorem inInit_writeDeviceMask (w : Word) : (State.writeDeviceMask w s).inInit = s.inInit := by simp [State.inInit]
@[simp] theorem slotAt_writeWindow (x : Byte) (j : Nat) (w : Word) (i : Nat) : (s.writeWindow x j w).slotAt i = s.slotAt i := slotAt_congr (by simp) i
@[simp] theorem domainAt_writeWindow (x : Byte) (j : Nat) (w : Word) (n : Nat) : (s.writeWindow x j w).domainAt n = s.domainAt n := domainAt_congr (by simp) n
@[simp] theorem inInit_writeWindow (x : Byte) (j : Nat) (w : Word) : (s.writeWindow x j w).inInit = s.inInit := by simp [State.inInit]
@[simp] theorem slotAt_examineNext (f : InFlight) (j : Nat) (i : Nat) : (s.examineNext f j).slotAt i = s.slotAt i := slotAt_congr (by simp) i
@[simp] theorem domainAt_examineNext (f : InFlight) (j : Nat) (n : Nat) : (s.examineNext f j).domainAt n = s.domainAt n := domainAt_congr (by simp) n
@[simp] theorem slotAt_domainDone (m : Nat) (d : DomainRecord) (i : Nat) : (s.domainDone m d).slotAt i = s.slotAt i :=
  slotAt_congr (by simp) i
@[simp] theorem domainAt_domainDone (m : Nat) (d : DomainRecord) (n : Nat) :
    (s.domainDone m d).domainAt n = if m = n ∧ n < 16 then d else s.domainAt n := by
  rw [← domainAt_setDomain]; exact domainAt_congr (by simp) n
@[simp] theorem slotAt_passDone (m : Nat) (k : ResultCode) (h : Handle) (c : Option Cursor) (x : Nat) (i : Nat) :
    (s.passDone m k h c x).slotAt i = s.slotAt i := slotAt_congr (by simp) i
@[simp] theorem domainAt_passDone (m : Nat) (k : ResultCode) (h : Handle) (c : Option Cursor) (x : Nat) (n : Nat) :
    (s.passDone m k h c x).domainAt n = if m = n ∧ n < 16 then { s.domainAt m with cursor := c } else s.domainAt n := by
  rw [← domainAt_setDomain]; exact domainAt_congr (by simp) n

end Sys2Proof.Machine
end

