-- ==== Sys2Proof/Laws/Events.lean ====
section
/-! SUPPORT. Everything one event can do, said once: `Shape s c t` lists the shapes of a next state with what each one needs, and
`exec_shape` says that every event that answers a next state has one of them. -/

namespace Sys2Proof.Machine

/-- The effect of the search event that serves a request (R17). -/
def effectOf (s : State) (r : Request) : SearchEffect :=
  match r.question with
  | .lookup learn k length => lookupEffect s r learn k length
  | .probe k => probeEffect s r k
  | .touch i gen => touchEffect s r i gen

/-- The state after a walk's step on its next slot, before ATTN is judged. -/
def State.walked (s : State) (w : Walk) : State :=
  if w.next + 1 < Config.slotCount then
    { (s.grant .ageing).stepSlot w.k w.next with walk := some { w with next := w.next + 1 }, ageingClaim := true }
  else { (s.grant .ageing).stepSlot w.k w.next with walk := none }

/-- The shapes of a next state. -/
inductive Shape (s : State) : Instr → State → Prop
  | same {c} : Shape s c s
  | fullReset {c} (held : Bool) (f : Frame) (line : held = s.resetHeld ∨ held = true) :
    Shape s c { s.fullReset with resetHeld := held, frame := f }
  | released : Shape s .resetNRelease { s with resetHeld := false }
  | cleared (due : s.clearing = true) :
    Shape s .tableClearingCompletion (s.judgeFrom { s with engine := .idle, ageInterval := intervalOf s.ageStep })
  | linkAssert : Shape s .linkResetAssert { s with linkReset := true, queue := [], holding := false, searchClaim := false }
  | linkRelease : Shape s .linkResetRelease { s with linkReset := false }
  | notReady (v : RequestWords) : Shape s (.requestArrival v) (s.respond (.bare (tagOf v) .notReady))
  | turnedAway (v : RequestWords) (d : DeviceCondition) (o : LinkOutcome) (out : s.inInit = false) :
    Shape s (.requestArrival v) ((s.raiseDevice d).respond (.bare (tagOf v) o))
  | admitted (v : RequestWords) (line : s.linkReset = false) (out : s.inInit = false) (valid : requestValid v = true)
    (room : s.queue.length < 8) : Shape s (.requestArrival v) { s with queue := s.queue ++ [requestOf v] }
  | headOff (r : Request) (rest : List Request) (empty : s.holding = false) (queue : s.queue = r :: rest) :
    Shape s .takeHead ({ s with queue := rest }.respond (.bare r.tag .off))
  | headHeld (r : Request) (rest : List Request) (empty : s.holding = false) (queue : s.queue = r :: rest) :
    Shape s .takeHead { s with holding := true, searchClaim := true }
  | searched (r : Request) (rest : List Request) (grant : s.nextGrant = some .search) (queue : s.queue = r :: rest) :
    Shape s r.question.row (s.searchEvent r rest (effectOf s r))
  | ticked (b : BitVec 8) (runs : s.ageInterval = some b) (room : s.pendingTicks < 3) :
    Shape s .ageTimerExpiry { s with ageInterval := intervalOf s.ageStep, pendingTicks := s.pendingTicks + 1 }
  | overran (b : BitVec 8) (runs : s.ageInterval = some b) (full : 3 ≤ s.pendingTicks) :
    Shape s .ageTimerExpiry ({ s with ageInterval := intervalOf s.ageStep }.raiseDevice .ageOverrun)
  | walkStarted (due : s.walkDue = true) :
    Shape s .walkStart { s with walk := some { k := s.pendingTicks, next := 0 }, pendingTicks := 0, ageingClaim := true }
  | walked (w : Walk) (grant : s.nextGrant = some .ageing) (walk : s.walk = some w) :
    Shape s .walkStep (s.judgeFrom (s.walked w))
  | refusedInInit {c} (init : s.engine = .init) :
    Shape s c { s with refused := s.refused || !s.resetHeld, frame := .ignoring }
  | refusedBusy {c} (f : InFlight) (busy : s.engine = .busy f) : Shape s c { s with refused := true, frame := .ignoring }
  | taken {c} (k : Option Command) (o : Operands) (idle : s.engine = .idle) (level : k = some .reset → commandLevel o.rpl ≠ 0) :
    Shape s c (s.take k o)
  | slotGranted (k : Command) (f : InFlight) (grant : s.nextGrant = some .command) (busy : s.engine = .busy f)
    (command : f.command = some k) (progress : f.progress = .grant) (uses : usesSlot k = true) :
    Shape s .commandGrant (s.slotCommand k f)
  | visited (sweep : Bool) (f : InFlight) (o v x : Nat) (grant : s.nextGrant = some .command) (busy : s.engine = .busy f)
    (command : f.command = some (if sweep then .sweep else .scan)) (progress : f.progress = .visit o v x) :
    Shape s .passVisit (s.visitSlot sweep f o v x)
  | examined {c} (k : Command) (f : InFlight) (i : Nat) (grant : s.nextGrant = some .command) (busy : s.engine = .busy f)
    (command : f.command = some k) (which : k = .setDescriptor ∨ k = .restore) (progress : f.progress = .examine i)
    (free : (s.slotAt i).state = .free) : Shape s c ((s.grant .command).examineNext f i)
  | strandedDescriptor (f : InFlight) (i : Nat) (grant : s.nextGrant = some .command) (busy : s.engine = .busy f)
    (command : f.command = some .setDescriptor) (progress : f.progress = .examine i) :
    Shape s .descriptorExaminationGrant ((s.grant .command).complete (.onSlot .stranded i (s.slotAt i).gen))
  | strandedRestore (f : InFlight) (i : Nat) (grant : s.nextGrant = some .command) (busy : s.engine = .busy f)
    (command : f.command = some .restore) (progress : f.progress = .examine i) :
    Shape s .restoreExaminationGrant (s.judgeFrom
      (((s.grant .command).setDomain f.domain.toNat { s.domainAt f.domain.toNat with restoring := false }).complete
        (.onSlot .stranded i (s.slotAt i).gen)))
  | refusalCompleted (f : InFlight) (code : ResultCode) (busy : s.engine = .busy f) (progress : f.progress = .refused code) :
    Shape s .commandCompletion (s.complete (.plain code))
  | completed (f : InFlight) (k : Command) (t : State) (busy : s.engine = .busy f) (command : f.command = some k)
    (progress : f.progress = .complete) (effect : s.completionOf f k = some t) : Shape s .commandCompletion t
  | restored (f : InFlight) (busy : s.engine = .busy f) (command : f.command = some .restore) (progress : f.progress = .complete) :
    Shape s .restoreCompletion (s.domainDone f.domain.toNat (restoredRecordOf f.staged.domainWords))
  | pulseEnded (pulse : s.pulse = true) : Shape s .attnPulseEnd { s with pulse := false }
  | controlWritten {c} (d : Word) (out : s.inInit = false) : Shape s c { s.writeControl d with frame := .ignoring }
  | ageStepWritten {c} (d : Word) (out : s.inInit = false) : Shape s c { s.writeAgeStep d with frame := .ignoring }
  | conditionsWritten {c} (d : Word) (out : s.inInit = false) : Shape s c { s.writeDeviceConditions d with frame := .ignoring }
  | maskWritten {c} (d : Word) (out : s.inInit = false) : Shape s c { s.writeDeviceMask d with frame := .ignoring }
  | framed {c} (f : Frame) (ws : List Word) (e : Bool) (error : e = true → s.frameError = true ∨ s.resetHeld = false) :
    Shape s c { s with frame := f, sdoWords := ws, frameError := e }
  | windowWritten (d : Word) (w : Byte) (i : Nat) (f : Frame) (out : s.inInit = false) :
    Shape s (.windowWrite (.word d)) { s.writeWindow w i d with frame := f }

/-! ### The grants -/

/-- The next grant goes to a requester whose claim waits (R16). -/
theorem nextGrant_claims {s : State} {q : Requester} (h : s.nextGrant = some q) : s.claims q = true :=
  List.find?_some h

/-! ### Rows, one by one -/

theorem inInit_iff (s : State) : s.inInit = true ↔ s.engine = .init := by
  unfold State.inInit; cases s.engine <;> simp

theorem inInit_false_iff (s : State) : s.inInit = false ↔ s.engine ≠ .init := by
  unfold State.inInit; cases s.engine <;> simp

/-- A byte that the frame does not bring changes nothing, and only where every further byte is ignored (R176). -/
theorem strayByte_next {s t : State} (h : strayByte s = .next t) : t = s ∧ s.frame = .ignoring := by
  unfold strayByte at h; split at h <;> simp_all

/-- The byte at which a row acts: in a frame of its kind it acts, and where every further byte is ignored nothing changes (R176). -/
theorem inFrame_next {s t : State} {k : FrameKind} {act : Out} (h : s.inFrame k act = .next t) :
    (s.frame = .opened k ∧ act = .next t) ∨ (s.frame = .ignoring ∧ t = s) := by
  unfold State.inFrame at h
  split at h
  · exact .inl ⟨‹_›, h⟩
  · exact .inr (strayByte_next h).symm

theorem inFrame_opened {s : State} {k : FrameKind} {act : Out} (h : s.frame = .opened k) : s.inFrame k act = act := if_pos h

theorem inFrame_ignoring {s : State} {k : FrameKind} {act : Out} (h : s.frame = .ignoring) : s.inFrame k act = .next s := by
  simp [State.inFrame, strayByte, h]

/-- A COMMAND frame is refused in INIT and BUSY and taken in IDLE, where a permitted RESET is the full reset (R145, R146, R161). -/
theorem commandFrame_shape {k : Option Command} {o : Operands} {s t : State} {c : Instr} (h : commandFrame k o s = .next t) :
    Shape s c t := by
  obtain ⟨_, h⟩ | ⟨_, rfl⟩ := inFrame_next h
  · simp only [Host.Outcome.next.injEq] at h; subst h
    unfold State.deliver
    split
    · exact .refusedInInit ‹_›
    · exact .refusedBusy _ ‹_›
    · split
      · exact .fullReset s.resetHeld _ (.inl rfl)
      · rename_i hn; exact .taken k o ‹_› (fun hk hl => hn ⟨hk, hl⟩)
  · exact .same

/-- In INIT a register write only ends the frame, outside it it has its effect, and an ignored one changes nothing (R176, R177). -/
theorem registerWrite_next {effect : State → State} {s t : State} (h : registerWrite effect s = .next t) :
    (s.inInit = true ∧ t = { s with frame := .ignoring }) ∨ (s.inInit = false ∧ t = { effect s with frame := .ignoring }) ∨ t = s := by
  obtain ⟨_, h⟩ | ⟨_, rfl⟩ := inFrame_next h
  · simp only [Host.Outcome.next.injEq] at h
    cases hi : s.inInit <;> simp_all
  · exact .inr (.inr rfl)

theorem framedFrame {s : State} {c : Instr} (f : Frame) : Shape s c { s with frame := f } :=
  .framed f s.sdoWords s.frameError .inl

/-- A register write, by its address (R178). -/
theorem writeRegister_cases (a : Byte) (d : Word) (s : State) :
    s.writeRegister a d = s.writeControl d ∨ s.writeRegister a d = s.writeAgeStep d ∨
      s.writeRegister a d = s.writeDeviceConditions d ∨ s.writeRegister a d = s.writeDeviceMask d ∨ s.writeRegister a d = s := by
  unfold State.writeRegister regWriteEvent
  by_cases h2 : a = 2#8
  · simp [h2]
  · by_cases h3 : a = 3#8
    · simp [h3]
    · by_cases h4 : a = 4#8
      · simp [h4]
      · by_cases h5 : a = 5#8
        · simp [h5]
        · simp [h2, h3, h4, h5]

theorem execRegWrite_shape {a : Byte} {d : Word} {s t : State} {c : Instr} (h : execRegWrite a d s = .next t) : Shape s c t := by
  unfold execRegWrite at h
  obtain ⟨_, rfl⟩ | ⟨ho, rfl⟩ | rfl := registerWrite_next h
  · exact framedFrame _
  · obtain e | e | e | e | e := writeRegister_cases a d s <;> rw [e]
    · exact .controlWritten d ho
    · exact .ageStepWritten d ho
    · exact .conditionsWritten d ho
    · exact .maskWritten d ho
    · exact framedFrame _
  · exact .same

theorem clearFrameErrorIf_eq (s : State) (b : Bool) : s.clearFrameErrorIf b = { s with frameError := s.frameError && !b } := by
  unfold State.clearFrameErrorIf; cases b <;> simp

theorem execRequestArrival_shape {v : RequestWords} {s t : State} (h : execRequestArrival v s = .next t) :
    Shape s (.requestArrival v) t := by
  unfold execRequestArrival at h
  split at h
  · simp only [Host.Outcome.next.injEq] at h; subst h; exact .same
  · rename_i hl
    split at h
    · simp only [Host.Outcome.next.injEq] at h; subst h; exact .notReady v
    · rename_i hi
      split at h
      · simp only [Host.Outcome.next.injEq] at h; subst h; exact .turnedAway v _ _ (by simpa using hi)
      · rename_i hv
        split at h
        · simp only [Host.Outcome.next.injEq] at h; subst h; exact .turnedAway v _ _ (by simpa using hi)
        · simp only [Host.Outcome.next.injEq] at h; subst h
          exact .admitted v (by simpa using hl) (by simpa using hi) (by simpa using hv) (by simp_all)

theorem execTakeHead_shape {s t : State} (h : execTakeHead s = .next t) : Shape s .takeHead t := by
  unfold execTakeHead at h
  split at h
  · cases h
  · rename_i hh
    split at h
    · cases h
    · rename_i r rest hq
      split at h <;> simp only [Host.Outcome.next.injEq] at h <;> subst h
      · exact .headOff r rest (by simpa using hh) hq
      · exact .headHeld r rest (by simpa using hh) hq

theorem execLookupSearchEvent_shape {s t : State} (h : execLookupSearchEvent s = .next t) : Shape s .lookupSearchEvent t := by
  unfold execLookupSearchEvent at h
  split at h
  · rename_i hg
    split at h
    · cases h
    · rename_i r rest hq
      split at h <;> try contradiction
      rename_i l k n hr
      simp only [Host.Outcome.next.injEq] at h; subst h
      have := Shape.searched r rest hg hq
      simpa [effectOf, Question.row, hr] using this
  · cases h

theorem execProbeSearchEvent_shape {s t : State} (h : execProbeSearchEvent s = .next t) : Shape s .probeSearchEvent t := by
  unfold execProbeSearchEvent at h
  split at h
  · rename_i hg
    split at h
    · cases h
    · rename_i r rest hq
      split at h <;> try contradiction
      rename_i k hr
      simp only [Host.Outcome.next.injEq] at h; subst h
      have := Shape.searched r rest hg hq
      simpa [effectOf, Question.row, hr] using this
  · cases h

theorem execTouchSearchEvent_shape {s t : State} (h : execTouchSearchEvent s = .next t) : Shape s .touchSearchEvent t := by
  unfold execTouchSearchEvent at h
  split at h
  · rename_i hg
    split at h
    · cases h
    · rename_i r rest hq
      split at h <;> try contradiction
      rename_i i g hr
      simp only [Host.Outcome.next.injEq] at h; subst h
      have := Shape.searched r rest hg hq
      simpa [effectOf, Question.row, hr] using this
  · cases h

theorem execAgeTimerExpiry_shape {s t : State} (h : execAgeTimerExpiry s = .next t) : Shape s .ageTimerExpiry t := by
  unfold execAgeTimerExpiry at h
  split at h
  · cases h
  · rename_i b hb
    simp only at h
    split at h <;> simp only [Host.Outcome.next.injEq] at h <;> subst h
    · exact .ticked b hb (by simp_all)
    · exact .overran b hb (by simp_all)

theorem execWalkStart_shape {s t : State} (h : execWalkStart s = .next t) : Shape s .walkStart t := by
  unfold execWalkStart at h
  split at h
  · simp only [Host.Outcome.next.injEq] at h; subst h; exact .walkStarted ‹_›
  · cases h

theorem execWalkStep_shape {s t : State} (h : execWalkStep s = .next t) : Shape s .walkStep t := by
  unfold execWalkStep at h
  split at h
  · split at h
    · cases h
    · simp only [Host.Outcome.next.injEq] at h; subst h
      exact .walked _ ‹_› ‹_›
  · cases h

theorem execCommandGrant_shape {s t : State} (h : execCommandGrant s = .next t) : Shape s .commandGrant t := by
  unfold execCommandGrant at h
  split at h <;> try contradiction
  split at h <;> try contradiction
  split at h <;> try contradiction
  split at h <;> try contradiction
  simp only [Host.Outcome.next.injEq] at h; subst h
  exact .slotGranted _ _ ‹_› ‹_› ‹_› ‹_› ‹_›

theorem execPassVisit_shape {s t : State} (h : execPassVisit s = .next t) : Shape s .passVisit t := by
  unfold execPassVisit at h
  split at h <;> try contradiction
  split at h <;> try contradiction
  split at h <;> try contradiction
  · simp only [Host.Outcome.next.injEq] at h; subst h
    exact .visited false _ _ _ _ ‹_› ‹_› ‹_› ‹_›
  · simp only [Host.Outcome.next.injEq] at h; subst h
    exact .visited true _ _ _ _ ‹_› ‹_› ‹_› ‹_›

theorem execDescriptorExaminationGrant_shape {s t : State} (h : execDescriptorExaminationGrant s = .next t) :
    Shape s .descriptorExaminationGrant t := by
  unfold execDescriptorExaminationGrant at h
  split at h <;> try contradiction
  split at h <;> try contradiction
  split at h <;> try contradiction
  simp only at h
  split at h <;> simp only [Host.Outcome.next.injEq] at h <;> subst h
  · exact .examined .setDescriptor _ _ ‹_› ‹_› ‹_› (.inl rfl) ‹_› ‹_›
  · exact .strandedDescriptor _ _ ‹_› ‹_› ‹_› ‹_›

theorem execRestoreExaminationGrant_shape {s t : State} (h : execRestoreExaminationGrant s = .next t) :
    Shape s .restoreExaminationGrant t := by
  unfold execRestoreExaminationGrant at h
  split at h <;> try contradiction
  split at h <;> try contradiction
  split at h <;> try contradiction
  simp only at h
  split at h <;> simp only [Host.Outcome.next.injEq] at h <;> subst h
  · exact .examined .restore _ _ ‹_› ‹_› ‹_› (.inr rfl) ‹_› ‹_›
  · exact .strandedRestore _ _ ‹_› ‹_› ‹_› ‹_›

theorem execCommandCompletion_shape {s t : State} (h : execCommandCompletion s = .next t) : Shape s .commandCompletion t := by
  unfold execCommandCompletion at h
  split at h <;> try contradiction
  split at h <;> try contradiction
  · simp only [Host.Outcome.next.injEq] at h; subst h
    exact .refusalCompleted _ _ ‹_› ‹_›
  · split at h <;> try contradiction
    simp only [Host.Outcome.next.injEq] at h; subst h
    exact .completed _ _ _ ‹_› ‹_› ‹_› ‹_›

theorem execRestoreCompletion_shape {s t : State} (h : execRestoreCompletion s = .next t) : Shape s .restoreCompletion t := by
  unfold execRestoreCompletion at h
  split at h <;> try contradiction
  split at h <;> try contradiction
  simp only [Host.Outcome.next.injEq] at h; subst h
  exact .restored _ ‹_› ‹_› ‹_›

theorem execStatusRead_shape {e : RegReadEvent} {s t : State} {c : Instr} (h : execStatusRead e s = .next t) : Shape s c t := by
  unfold execStatusRead at h
  split at h
  · obtain ⟨_, h⟩ | ⟨_, rfl⟩ := inFrame_next h
    · cases h; exact framedFrame _
    · exact .same
  · split at h
    · simp only [Host.Outcome.next.injEq] at h; subst h
      rw [clearFrameErrorIf_eq]
      exact .framed .ignoring _ _ (by intro h; left; simp_all)
    · rw [(strayByte_next h).1]; exact .same

theorem execWindowRead_shape {e : WindowReadEvent} {s t : State} {c : Instr} (h : execWindowRead e s = .next t) : Shape s c t := by
  unfold execWindowRead at h
  split at h
  · obtain ⟨_, h⟩ | ⟨_, rfl⟩ := inFrame_next h
    · cases h; exact framedFrame _
    · exact .same
  · split at h
    · simp only [Host.Outcome.next.injEq] at h; subst h
      exact .framed _ _ s.frameError .inl
    · rw [(strayByte_next h).1]; exact .same

theorem execSummary_shape {e : SummaryEvent} {s t : State} {c : Instr} (h : execSummary e s = .next t) : Shape s c t := by
  unfold execSummary at h
  split at h
  · split at h
    · cases h; exact framedFrame _
    · rw [(strayByte_next h).1]; exact .same
  · split at h
    · simp only [Host.Outcome.next.injEq] at h; subst h
      rw [clearFrameErrorIf_eq]
      exact .framed _ _ _ (by intro h; left; simp_all)
    · rw [(strayByte_next h).1]; exact .same

theorem execWindowWrite_shape {e : WindowWriteEvent} {s t : State} (h : execWindowWrite e s = .next t) :
    Shape s (.windowWrite e) t := by
  unfold execWindowWrite at h
  split at h
  · obtain ⟨_, h⟩ | ⟨_, rfl⟩ := inFrame_next h
    · cases h; exact framedFrame _
    · exact .same
  · split at h
    · split at h <;> simp only [Host.Outcome.next.injEq] at h <;> subst h
      · exact .windowWritten _ _ _ _ (by simp_all)
      · exact .same
    · rw [(strayByte_next h).1]; exact .same

theorem execFrameError_shape {e : FrameOpening} {s t : State} {c : Instr} (h : execFrameError e s = .next t) : Shape s c t := by
  unfold execFrameError at h
  split at h
  · cases h; exact framedFrame _
  · split at h
    · cases h
      unfold State.judgeCode
      split
      · exact .framed .ignoring s.sdoWords _ (by intro h; simp_all)
      · exact framedFrame _
      · exact framedFrame _
    · rw [(strayByte_next h).1]; exact .same

/-! ### Every event -/

/-- Every event that answers a next state has one of the shapes. -/
theorem exec_shape {c : Instr} {s t : State} (h : exec c s = .next t) : Shape s c t := by
  cases c with
  | powerOn => cases h; exact .fullReset s.resetHeld _ (.inl rfl)
  | resetNAssert => cases h; exact .fullReset true _ (.inr rfl)
  | resetNRelease => cases h; exact .released
  | tableClearingCompletion =>
    simp only [exec, execTableClearingCompletion] at h
    split at h
    · cases h; exact .cleared ‹_›
    · cases h
  | linkResetAssert => cases h; exact .linkAssert
  | linkResetRelease => cases h; exact .linkRelease
  | requestArrival v => exact execRequestArrival_shape h
  | takeHead => exact execTakeHead_shape h
  | lookupSearchEvent => exact execLookupSearchEvent_shape h
  | probeSearchEvent => exact execProbeSearchEvent_shape h
  | touchSearchEvent => exact execTouchSearchEvent_shape h
  | ageTimerExpiry => exact execAgeTimerExpiry_shape h
  | walkStart => exact execWalkStart_shape h
  | walkStep => exact execWalkStep_shape h
  | reset o => exact commandFrame_shape h
  | unknownCommand w o => exact commandFrame_shape h
  | commandGrant => exact execCommandGrant_shape h
  | passVisit => exact execPassVisit_shape h
  | descriptorExaminationGrant => exact execDescriptorExaminationGrant_shape h
  | restoreExaminationGrant => exact execRestoreExaminationGrant_shape h
  | commandCompletion => exact execCommandCompletion_shape h
  | restoreCompletion => exact execRestoreCompletion_shape h
  | attnPulseEnd =>
    simp only [exec, execAttnPulseEnd] at h
    split at h
    · cases h; exact .pulseEnded ‹_›
    · cases h
  | controlWrite d =>
    obtain ⟨_, rfl⟩ | ⟨ho, rfl⟩ | rfl := registerWrite_next h
    · exact framedFrame _
    · exact .controlWritten d ho
    · exact .same
  | ageStepWrite d =>
    obtain ⟨_, rfl⟩ | ⟨ho, rfl⟩ | rfl := registerWrite_next h
    · exact framedFrame _
    · exact .ageStepWritten d ho
    · exact .same
  | deviceConditionsWrite d =>
    obtain ⟨_, rfl⟩ | ⟨ho, rfl⟩ | rfl := registerWrite_next h
    · exact framedFrame _
    · exact .conditionsWritten d ho
    · exact .same
  | deviceMaskWrite d =>
    obtain ⟨_, rfl⟩ | ⟨ho, rfl⟩ | rfl := registerWrite_next h
    · exact framedFrame _
    · exact .maskWritten d ho
    · exact .same
  | regWrite a d => exact execRegWrite_shape h
  | statusRead e => exact execStatusRead_shape h
  | windowRead e => exact execWindowRead_shape h
  | windowWrite e => exact execWindowWrite_shape h
  | summary e => exact execSummary_shape h
  | frameError e => exact execFrameError_shape h
  | frameEnd => cases h; exact framedFrame _
  | writeSlot o | setVerdict o | hold o | release o | confirm o | pin o | unpin o | retire o | readSlot o | scan o | sweep o
  | setDescriptor o | exchange o | setState o | snapshot o | restore o | counters o | clearConditions o =>
    exact commandFrame_shape h

/-- A step that answers a next state idles, or does what the event at the front of the queue does with the queue's rest. -/
theorem step_shape {s t : State} (h : step s = .next t) :
    t = s ∨ ∃ c rest, s.pending = c :: rest ∧ Shape { s with pending := rest } c t := by
  unfold step at h
  split at h
  · left; cases h; rfl
  · right; exact ⟨_, _, ‹_›, exec_shape h⟩

end Sys2Proof.Machine
end

