-- ==== Sys2Proof/Laws/Ops.lean ====
section
/-! SUPPORT. What the shared operations do: searches, segments, counters, search effects, takes, grants, visits, examinations, walk steps. -/

namespace Sys2Proof.Machine

/-! ### Segments and searches (R25, R26, R38, R39, R56, R85) -/

theorem has_iff (g : Segment) (i : Nat) : g.has i = true ↔ g.base ≤ i ∧ i < g.base + g.size := by
  simp [Segment.has]

theorem mem_slots (g : Segment) (i : Nat) : i ∈ g.slots ↔ g.has i = true := by
  simp only [Segment.slots, List.mem_map, List.mem_range, has_iff]
  constructor
  · rintro ⟨o, ho, rfl⟩; omega
  · rintro ⟨h1, h2⟩; exact ⟨i - g.base, by omega, by omega⟩

theorem has_lt {g : Segment} (b : g.inBounds = true) {i : Nat} (h : g.has i = true) : i < 1024 := by
  simp [Segment.inBounds] at b; rw [has_iff] at h; omega

/-- The slots of a segment come in index order: a first one that passes a test is the lowest that does. -/
theorem slots_find?_some {g : Segment} {p : Nat → Bool} {i : Nat} :
    g.slots.find? p = some i ↔ g.has i = true ∧ p i = true ∧ ∀ j, g.has j = true → j < i → p j = false := by
  unfold Segment.slots
  rw [List.find?_map]
  simp only [Option.map_eq_some_iff, List.find?_range_eq_some, Function.comp, has_iff, List.mem_range]
  constructor
  · rintro ⟨o, ⟨h1, h2, h3⟩, rfl⟩
    refine ⟨by omega, h1, fun j hj hlt => ?_⟩
    have := h3 (j - g.base) (by omega)
    rw [show g.base + (j - g.base) = j from by omega] at this
    simpa using this
  · rintro ⟨⟨h1, h2⟩, h3, h4⟩
    refine ⟨i - g.base, ⟨?_, by omega, fun j hj => ?_⟩, by omega⟩
    · rwa [show g.base + (i - g.base) = i from by omega]
    · simpa using h4 (g.base + j) (by omega) (by omega)

theorem slots_find?_none {g : Segment} {p : Nat → Bool} :
    g.slots.find? p = none ↔ ∀ j, g.has j = true → p j = false := by
  simp [List.find?_eq_none, mem_slots]

theorem search_some {s : State} {g : Segment} {k : Key} {i : Nat} (h : s.search g k = some i) :
    g.has i = true ∧ (s.slotAt i).state ≠ .free ∧ keyMatches (s.slotAt i) k = true := by
  obtain ⟨h1, h2, _⟩ := slots_find?_some.mp h
  simp only [Bool.and_eq_true, decide_eq_true_eq] at h2
  exact ⟨h1, h2.1, h2.2⟩

theorem firstFree_some {s : State} {g : Segment} {i : Nat} (h : s.firstFree g = some i) :
    g.has i = true ∧ (s.slotAt i).state = .free := by
  obtain ⟨h1, h2, _⟩ := slots_find?_some.mp h
  exact ⟨h1, by simpa using h2⟩

theorem nextLeaving_some {d e : Descriptor} {m i : Nat} (h : nextLeaving d e m = some i) :
    m ≤ i ∧ i < 1024 ∧ leaves d e i = true ∧ ∀ j, m ≤ j → j < i → leaves d e j = false := by
  unfold nextLeaving at h
  rw [List.find?_range_eq_some] at h
  obtain ⟨h1, h2, h3⟩ := h
  simp only [Bool.and_eq_true, decide_eq_true_eq, List.mem_range] at h1 h2
  refine ⟨h1.1, h2, h1.2, fun j hj hlt => ?_⟩
  have := h3 j hlt
  simpa [hj] using this

theorem nextLeaving_none {d e : Descriptor} {m : Nat} (h : nextLeaving d e m = none) :
    ∀ j, m ≤ j → j < 1024 → leaves d e j = false := by
  unfold nextLeaving at h
  intro j hj hlt
  have := List.find?_eq_none.mp h j (by simpa using hlt)
  simpa [hj] using this

theorem overlaps_false {s : State} {n : Nat} {d : Descriptor} :
    s.overlaps n d = false ↔ d.active.disjoint d.standby = true ∧ ∀ m, m < 16 → m ≠ n → d.apart (s.domainAt m).desc = true := by
  unfold State.overlaps
  rw [Bool.or_eq_false_iff, List.any_eq_false]
  simp only [Bool.not_eq_false', List.mem_range, Bool.and_eq_true, bne_iff_ne, ne_eq, Bool.not_eq_true', not_and,
    Bool.not_eq_false]

/-- Segments that are disjoint share no slot (R26). -/
theorem disjoint_has {g h : Segment} (d : g.disjoint h = true) {i : Nat} (hg : g.has i = true) : h.has i = false := by
  rw [has_iff] at hg
  rw [Bool.eq_false_iff, Ne, has_iff]
  simp only [Segment.disjoint, Bool.or_eq_true, decide_eq_true_eq] at d
  omega

theorem segment_disjoint_comm (g h : Segment) : g.disjoint h = h.disjoint g := by
  rw [Bool.eq_iff_iff]
  simp only [Segment.disjoint, Bool.or_eq_true, decide_eq_true_eq]
  omega

theorem apart_comm (d e : Descriptor) : d.apart e = e.apart d := by
  unfold Descriptor.apart
  rw [segment_disjoint_comm d.active e.active, segment_disjoint_comm d.active e.standby, segment_disjoint_comm d.standby e.active,
    segment_disjoint_comm d.standby e.standby]
  cases e.active.disjoint d.active <;> cases e.standby.disjoint d.active <;> cases e.active.disjoint d.standby <;>
    cases e.standby.disjoint d.standby <;> rfl

/-! ### Counters and conditions (R121, R128) -/

section
variable (d : DomainRecord) (c : Condition) (n : Counter) (b : Bool)

@[simp] theorem raise_state : (d.raise c).state = d.state := rfl
@[simp] theorem raise_desc : (d.raise c).desc = d.desc := rfl
@[simp] theorem raise_counters : (d.raise c).counters = d.counters := rfl
@[simp] theorem raise_cursor : (d.raise c).cursor = d.cursor := rfl
@[simp] theorem raise_restoring : (d.raise c).restoring = d.restoring := rfl
@[simp] theorem raise_sticky : (d.raise c).sticky = d.sticky ||| c.bit := rfl
@[simp] theorem raiseIf_state : (d.raiseIf b c).state = d.state := by cases b <;> rfl
@[simp] theorem raiseIf_desc : (d.raiseIf b c).desc = d.desc := by cases b <;> rfl
@[simp] theorem raiseIf_counters : (d.raiseIf b c).counters = d.counters := by cases b <;> rfl
@[simp] theorem raiseIf_cursor : (d.raiseIf b c).cursor = d.cursor := by cases b <;> rfl
@[simp] theorem raiseIf_restoring : (d.raiseIf b c).restoring = d.restoring := by cases b <;> rfl
@[simp] theorem raiseIf_sticky : (d.raiseIf b c).sticky = d.sticky ||| (if b then c.bit else 0) := by
  cases b <;> simp [DomainRecord.raiseIf]
@[simp] theorem count_state : (d.count n).state = d.state := by simp [DomainRecord.count]
@[simp] theorem count_desc : (d.count n).desc = d.desc := by simp [DomainRecord.count]
@[simp] theorem count_cursor : (d.count n).cursor = d.cursor := by simp [DomainRecord.count]
@[simp] theorem count_restoring : (d.count n).restoring = d.restoring := by simp [DomainRecord.count]
@[simp] theorem count_counters :
    (d.count n).counters = d.counters.set (countedValue d.desc.countStop (d.counters.get n)) n := by simp [DomainRecord.count]
end

/-! ### Search effects (R17, R72 to R79, R84 to R88) -/

/-- What a search event may make of the one slot it writes. -/
inductive SlotServed (s : State) (r : Request) (i : Nat) : Slot → Prop
  /-- A counted hit (R74). -/
  | hit (stop : Bool) (length : BitVec 16) (binding : (s.slotAt i).state ≠ .free) :
    SlotServed s r i ((s.slotAt i).countHit stop length)
  /-- A refresh by TOUCH (R79). -/
  | touched (binding : (s.slotAt i).state ≠ .free) : SlotServed s r i (s.slotAt i).refresh
  /-- A learn creation (R86). -/
  | learned (k : Key) (length : BitVec 16) (v : Verdict) (learn : Bool) (question : r.question = .lookup learn k length)
    (free : (s.slotAt i).state = .free) : SlotServed s r i (learnedRecord (s.slotAt i) r.domain k length v)

/-- The slot a search event writes lies in the active segment of the request's domain, which is in service. -/
theorem effectOf_slot {s : State} {r : Request} {i : Nat} {x : Slot} (h : (effectOf s r).slot = some (i, x)) :
    (s.domainOf r).desc.active.has i = true ∧ (s.domainOf r).outOfService = false ∧ SlotServed s r i x := by
  unfold effectOf at h
  split at h
  · rename_i learn k length hq
    unfold lookupEffect at h
    simp only at h
    split at h
    · simp [SearchEffect.bare] at h
    · rename_i ho
      simp only [Bool.not_eq_true] at ho
      split at h
      · simp at h
      · split at h
        · rename_i j hj
          obtain ⟨h1, h2, _⟩ := search_some hj
          unfold lookupHit at h
          simp only [count_desc] at h
          have : (i, x) = (j, (s.slotAt j).countHit (s.domainOf r).desc.countStop length) := by
            split at h <;> simpa using h.symm
          injection this with a b
          subst a b
          exact ⟨h1, ho, .hit _ _ h2⟩
        · unfold lookupMiss at h
          split at h
          · split at h
            · rename_i j hj
              obtain ⟨h1, h2⟩ := firstFree_some hj
              simp only [Option.some.injEq, Prod.mk.injEq] at h
              obtain ⟨a, b⟩ := h
              subst a b
              exact ⟨by simpa using h1, ho, .learned _ _ _ _ hq h2⟩
            · simp at h
          · simp at h
  · unfold probeEffect at h
    simp only at h
    split at h
    · simp [SearchEffect.bare] at h
    · split at h
      · simp [SearchEffect.bare] at h
      · split at h <;> simp [SearchEffect.bare] at h
  · unfold touchEffect at h
    simp only at h
    split at h
    · simp [SearchEffect.bare] at h
    · rename_i ho
      simp only [Bool.not_eq_true] at ho
      split at h
      · simp at h
      · split at h
        · rename_i hn
          simp only [Option.some.injEq, Prod.mk.injEq] at h
          obtain ⟨a, b⟩ := h
          subst a b
          simp only [State.namesActive, Bool.and_eq_true, decide_eq_true_eq] at hn
          exact ⟨hn.1.1, ho, .touched hn.1.2⟩
        · simp at h

/-- A search event changes the link side, the grant, slots, domain records, and the pulse. -/
theorem searchEvent_frame (s : State) (r : Request) (rest : List Request) (e : SearchEffect) :
    s.searchEvent r rest e = { s with
      queue := rest, holding := false, searchClaim := false, lastGranted := .search, responses := s.responses ++ [e.response]
      slots := (s.writeSlot? e.slot).slots, domains := s.domains.setIfInBounds r.domain.toNat e.record
      pulse := (s.searchEvent r rest e).pulse } := by
  unfold State.searchEvent State.judgeFrom
  split <;> (cases he : e.slot <;> rfl)

/-- What a search event may make of its domain's record: nothing, or counted and raised. -/
inductive RecordServed (d : DomainRecord) : DomainRecord → Prop
  | kept : RecordServed d d
  | denied : RecordServed d (((d.count .lookups).count .denied).raise .denied)
  | held (b : Bool) : RecordServed d ((((d.count .lookups).count .heldHits).raise .held).raiseIf b .wrap)
  | hit (b : Bool) : RecordServed d (((d.count .lookups).count .hits).raiseIf b .wrap)
  | learned : RecordServed d ((d.count .lookups).count .learned)
  | full : RecordServed d ((((d.count .lookups).count .misses).raise .full).raise .miss)
  | missed : RecordServed d (((d.count .lookups).count .misses).raise .miss)
  | touchDenied : RecordServed d ((d.count .touches).raise .denied)
  | touched : RecordServed d (d.count .touches)
  | touchStale : RecordServed d ((d.count .touches).raise .stale)

theorem effectOf_record (s : State) (r : Request) : RecordServed (s.domainOf r) (effectOf s r).record := by
  unfold effectOf
  split
  · unfold lookupEffect
    simp only
    split
    · exact .kept
    · split
      · exact .denied
      · split
        · unfold lookupHit
          simp only
          split
          · exact .held _
          · exact .hit _
          · exact .hit _
          · exact .hit _
        · unfold lookupMiss
          split
          · split
            · exact .learned
            · exact .full
          · exact .missed
  · unfold probeEffect
    simp only
    split
    · exact .kept
    · split
      · exact .kept
      · split <;> exact .kept
  · unfold touchEffect
    simp only
    split
    · exact .kept
    · split
      · exact .touchDenied
      · split
        · exact .touched
        · exact .touchStale

theorem RecordServed.desc {d e : DomainRecord} (h : RecordServed d e) : e.desc = d.desc := by cases h <;> simp
theorem RecordServed.state {d e : DomainRecord} (h : RecordServed d e) : e.state = d.state := by cases h <;> simp
theorem RecordServed.cursor {d e : DomainRecord} (h : RecordServed d e) : e.cursor = d.cursor := by cases h <;> simp
theorem RecordServed.restoring {d e : DomainRecord} (h : RecordServed d e) : e.restoring = d.restoring := by cases h <;> simp

/-! ### Walk steps (R102 to R106) -/

/-- What a walk's step on a slot may do. -/
inductive Stepped (s : State) (k i : Nat) : State → Prop
  | still : Stepped s k i s
  | aged (r : Slot) (acts : s.stepActs i = true) (record : ageBinding (s.domainAt (s.slotAt i).domain.toNat).desc k (s.slotAt i) = some r) :
    Stepped s k i (s.setSlot i r)
  | retired (acts : s.stepActs i = true) (record : ageBinding (s.domainAt (s.slotAt i).domain.toNat).desc k (s.slotAt i) = none) :
    Stepped s k i ((s.setSlot i (s.slotAt i).retire).setDomain (s.slotAt i).domain.toNat
      (((s.domainAt (s.slotAt i).domain.toNat).count .aged).raise .aged))

theorem stepSlot_stepped (s : State) (k i : Nat) : Stepped s k i (s.stepSlot k i) := by
  unfold State.stepSlot
  split
  · simp only
    split
    · exact .aged _ ‹_› ‹_›
    · exact .retired ‹_› ‹_›
  · exact .still

/-- A walk's step changes slots and domain records alone. -/
theorem stepSlot_frame (s : State) (k i : Nat) :
    s.stepSlot k i = { s with slots := (s.stepSlot k i).slots, domains := (s.stepSlot k i).domains } := by
  have h := stepSlot_stepped s k i
  generalize s.stepSlot k i = t at h
  cases h <;> rfl

/-- A walk's step, with the claim for the next slot or the end of the walk (R101). -/
theorem walked_frame (s : State) (w : Walk) :
    s.walked w = { s with
      slots := (s.walked w).slots, domains := (s.walked w).domains, lastGranted := .ageing
      ageingClaim := decide (w.next + 1 < 1024)
      walk := if w.next + 1 < 1024 then some { w with next := w.next + 1 } else none } := by
  unfold State.walked
  rw [stepSlot_frame]
  split <;> simp_all [State.grant]

/-- The slots and records after a walk's step are those after `stepSlot`. -/
theorem walked_table (s : State) (w : Walk) :
    (s.walked w).slots = ((s.grant .ageing).stepSlot w.k w.next).slots ∧
      (s.walked w).domains = ((s.grant .ageing).stepSlot w.k w.next).domains := by
  unfold State.walked
  split <;> exact ⟨rfl, rfl⟩

theorem stepActs_iff {s : State} {i : Nat} : s.stepActs i = true ↔
    (s.slotAt i).state ≠ .free ∧ (s.domainAt (s.slotAt i).domain.toNat).state = .on ∧
      (s.domainAt (s.slotAt i).domain.toNat).restoring = false ∧ (s.domainAt (s.slotAt i).domain.toNat).desc.active.has i = true ∧
      (s.slotAt i).pinned = false := by
  simp [State.stepActs, and_assoc]

/-- A step that does not retire keeps the binding's STATE and changes IDLE and LEVEL alone; a PROVISIONAL one keeps its LEVEL (R103, R105). -/
theorem ageBinding_some {d : Descriptor} {k : Nat} {r x : Slot} (h : ageBinding d k r = some x) :
    ∃ idle level, x = { r with idle := idle, level := level } ∧ (r.state = .provisional → level = r.level) ∧
      (r.state = .free → x = r) := by
  unfold ageBinding at h
  simp only at h
  split at h
  · injection h with h; subst h; exact ⟨r.idle, r.level, rfl, fun _ => rfl, fun _ => rfl⟩
  · split at h
    · cases h
    · injection h with h; subst h; exact ⟨_, r.level, rfl, fun _ => rfl, by intro e; simp_all⟩
  all_goals
    split at h
    · cases h
    · injection h with h; subst h
      exact ⟨_, _, rfl, by intro e; simp_all, by intro e; simp_all⟩

/-! ### Takes (R145, R151) -/

/-- A take changes the engine, REFUSED, the claim, the frame, and for a RESTORE that passes its take checks RESTORING and the pulse. -/
theorem take_cases (s : State) (c : Option Command) (o : Operands) :
    let f := s.inFlight c o
    let taken := { s with engine := .busy f, refused := false, commandClaim := f.progress.claims, frame := .ignoring }
    (¬ (c = some .restore ∧ f.progress.isRefused = false) ∧ s.take c o = taken) ∨
    (c = some .restore ∧ f.progress.isRefused = false ∧
      s.take c o = s.judgeFrom (taken.setDomain o.domain.toNat { s.domainAt o.domain.toNat with restoring := true })) := by
  unfold State.take
  simp only
  split
  · rename_i h; right; exact ⟨h.1, h.2, rfl⟩
  · left; exact ⟨‹_›, rfl⟩

/-- A take writes the command in flight and places its first claim. -/
@[simp] theorem take_engine (s : State) (c : Option Command) (o : Operands) : (s.take c o).engine = .busy (s.inFlight c o) := by
  unfold State.take; simp only; split <;> simp

@[simp] theorem take_commandClaim (s : State) (c : Option Command) (o : Operands) :
    (s.take c o).commandClaim = (s.inFlight c o).progress.claims := by
  unfold State.take; simp only; split <;> simp

/-- A take leaves everything else but its domain's RESTORING and the pulse. -/
theorem take_frame (s : State) (c : Option Command) (o : Operands) :
    s.take c o = { s with
      engine := .busy (s.inFlight c o), refused := false, commandClaim := (s.inFlight c o).progress.claims, frame := .ignoring
      domains := (s.take c o).domains, pulse := (s.take c o).pulse } := by
  unfold State.take State.judgeFrom; simp only
  split
  · split <;> rfl
  · rfl

/-- A take sets RESTORING of the domain of a RESTORE that passes its take checks, and changes no other record (R173). -/
theorem take_domainAt (s : State) (c : Option Command) (o : Operands) (n : Nat) :
    (s.take c o).domainAt n =
      if (c = some .restore ∧ (s.inFlight c o).progress.isRefused = false) ∧ o.domain.toNat = n ∧ n < 16 then
        { s.domainAt n with restoring := true } else s.domainAt n := by
  obtain ⟨h, e⟩ | ⟨h1, h2, e⟩ := take_cases s c o <;> rw [e]
  · rw [if_neg (fun x => h x.1)]; exact domainAt_congr rfl n
  · rw [domainAt_judgeFrom, domainAt_setDomain]
    by_cases hn : o.domain.toNat = n ∧ n < 16
    · rw [if_pos hn, if_pos ⟨⟨h1, h2⟩, hn⟩, hn.1]
    · rw [if_neg hn, if_neg (fun x => hn x.2)]; exact domainAt_congr rfl n

@[simp] theorem inFlight_command (s : State) (c : Option Command) (o : Operands) : (s.inFlight c o).command = c := rfl
@[simp] theorem inFlight_domain (s : State) (c : Option Command) (o : Operands) : (s.inFlight c o).domain = o.domain := rfl
@[simp] theorem inFlight_slot (s : State) (c : Option Command) (o : Operands) : (s.inFlight c o).slot = o.slot := rfl
@[simp] theorem inFlight_flags (s : State) (c : Option Command) (o : Operands) : (s.inFlight c o).flags = o.flags := rfl

/-- A command whose progress is not that of a refusal has passed the take checks, and goes on as its own rule gives. -/
theorem inFlight_progress {s : State} {c : Option Command} {o : Operands} (h : (s.inFlight c o).progress.isRefused = false) :
    s.takeCheck o c = none ∧ ∃ k, c = some k ∧ (s.inFlight c o).progress = s.startOf o (s.inFlight c o).staged k := by
  unfold State.inFlight at h ⊢
  simp only at h ⊢
  cases hc : s.takeCheck o c with
  | some code => simp [hc, Progress.isRefused] at h
  | none =>
    cases c with
    | none => simp [State.takeCheck] at hc
    | some k => exact ⟨rfl, k, rfl, rfl⟩

/-- Every command but RESET that passes the take checks names a domain, and a slot where it uses one (R151). -/
theorem takeCheck_none {s : State} {o : Operands} {k : Command} (h : s.takeCheck o (some k) = none) :
    (k = .reset ∧ commandLevel o.rpl = 0) ∨
      (k ≠ .reset ∧ o.domain.toNat ≤ 15 ∧ (usesSlot k = true → o.slot.toNat ≤ 1023) ∧
        ¬ levelNeeded (s.domainAt o.domain.toNat) k < commandLevel o.rpl) := by
  by_cases hk : k = .reset
  · subst hk; left
    simp only [State.takeCheck] at h
    split at h <;> simp_all
  · right
    unfold State.takeCheck at h
    split at h
    · simp_all
    · simp_all
    · rename_i c _ hc
      injection hc with hc; subst hc
      split at h
      · cases h
      · split at h
        · cases h
        · split at h
          · cases h
          · refine ⟨hk, by omega, fun hu => ?_, ‹_›⟩
            have := ‹¬ (usesSlot _ = true ∧ _)›
            simp [hu] at this; omega

/-- A pass starts before its segment's end, or makes no visit (R166). -/
theorem passStart_cases (d : DomainRecord) (flags : Word) :
    (∃ code, passStart d flags = .refused code) ∨ passStart d flags = .complete ∨
      ∃ o, passStart d flags = .visit o 0 0 ∧ o < (d.desc.segment (criteriaOf flags).segment).size := by
  unfold passStart
  simp only
  repeat' split
  all_goals first
    | exact .inl ⟨_, rfl⟩
    | exact .inr (.inl rfl)
    | exact .inr (.inr ⟨_, rfl, by omega⟩)

/-- SET_DESCRIPTOR and RESTORE that are not refused at the take have passed R37 and R38 (R39, R174). -/
theorem descriptorStart_cases (s : State) (n : Nat) (v : Vector Word 24) :
    (∃ code, s.descriptorStart n v = .refused code) ∨
      (descriptorValid v = true ∧ s.overlaps n (descriptorOf v) = false ∧
        s.descriptorStart n v = examineFrom (s.domainAt n).desc (descriptorOf v) 0) := by
  unfold State.descriptorStart
  repeat' split
  all_goals simp_all

theorem restoreStart_cases (s : State) (n : Nat) (v : Vector Word 24) :
    (∃ code, s.restoreStart n v = .refused code) ∨
      (domainValid v = true ∧ s.overlaps n (descriptorOf v) = false ∧
        s.restoreStart n v = examineFrom (s.domainAt n).desc (descriptorOf v) 0) := by
  unfold State.restoreStart
  repeat' split
  all_goals simp_all

theorem examineFrom_cases (d e : Descriptor) (m : Nat) :
    (∃ i, examineFrom d e m = .examine i ∧ m ≤ i ∧ i < 1024 ∧ leaves d e i = true ∧ ∀ j, m ≤ j → j < i → leaves d e j = false) ∨
      (examineFrom d e m = .complete ∧ ∀ j, m ≤ j → j < 1024 → leaves d e j = false) := by
  unfold examineFrom
  split
  · left; exact ⟨_, rfl, nextLeaving_some ‹_›⟩
  · right; exact ⟨rfl, nextLeaving_none ‹_›⟩

@[simp] theorem examineNext_engine (s : State) (f : InFlight) (i : Nat) :
    (s.examineNext f i).engine =
      .busy { f with progress := examineFrom (s.domainAt f.domain.toNat).desc (descriptorOf f.staged.domainWords) (i + 1) } := by
  simp only [State.examineNext]

@[simp] theorem examineNext_commandClaim (s : State) (f : InFlight) (i : Nat) :
    (s.examineNext f i).commandClaim =
      (examineFrom (s.domainAt f.domain.toNat).desc (descriptorOf f.staged.domainWords) (i + 1)).claims := by
  simp only [State.examineNext]

/-! ### Visits (R167, R168) -/

/-- How a visit may leave the state `g` that its grant and its retirement have made: the issue ends, with CURSOR and RESULT written, or
the next visit is claimed. -/
inductive Visited (g : State) (f : InFlight) (size : Nat) (seg : SegmentName) : State → Prop
  | ended (code : ResultCode) (h : Handle) (cursor : Option Cursor) (count : Nat) (small : count ≤ 64)
    (within : ∀ c, cursor = some c → c.segment = seg ∧ c.offset ≤ size) :
    Visited g f size seg (g.passDone f.domain.toNat code h cursor count)
  | next (o v x : Nat) (before : o < size) (visits : v < 64) (retired : x ≤ v) :
    Visited g f size seg { g with engine := .busy { f with progress := .visit o v x }, commandClaim := true }

theorem passOn_visited (g : State) (sweep : Bool) (f : InFlight) (seg : Segment) (name : SegmentName) (o v x : Nat) (hx : x ≤ v)
    (hv : v ≤ 64) : Visited g f seg.size name (g.passOn sweep f seg name o v x) := by
  unfold State.passOn
  split
  · exact .ended _ _ _ _ (by omega) (by simp)
  · split
    · refine .ended _ _ _ _ (by omega) ?_
      rintro c hc
      injection hc with hc; subst hc
      exact ⟨rfl, by simp; omega⟩
    · exact .next _ _ _ (by omega) (by simp_all) hx

/-- A visit grants the claim, makes a selected slot of a SWEEP FREE, and ends the issue or claims the next visit. -/
theorem visitSlot_visited (s : State) (sweep : Bool) (f : InFlight) (o v x : Nat) (hx : x ≤ v) (hv : v < 64)
    (ho : o < ((s.domainAt f.domain.toNat).desc.segment (criteriaOf f.flags).segment).size) :
    let g := (s.domainAt f.domain.toNat).desc.segment (criteriaOf f.flags).segment
    ∃ t, (t = s.grant .command ∨ t = (s.grant .command).setSlot (g.base + o) (s.slotAt (g.base + o)).retire) ∧
      Visited t f g.size (criteriaOf f.flags).segment (s.visitSlot sweep f o v x) := by
  unfold State.visitSlot
  simp only
  split
  · split
    · exact ⟨_, .inr rfl, passOn_visited _ _ _ _ _ _ _ _ (by omega) (by omega)⟩
    · refine ⟨_, .inl rfl, .ended _ _ _ _ (by omega) ?_⟩
      rintro c hc
      injection hc with hc; subst hc
      exact ⟨rfl, by simp; omega⟩
  · exact ⟨_, .inl rfl, passOn_visited _ _ _ _ _ _ _ _ (by omega) (by omega)⟩

/-! ### Grants of one-slot commands (R152) -/

/-- How a one-slot command leaves the state: refused, changing nothing but RESULT, or done, with its slot edited. -/
theorem slotCommand_cases (s : State) (c : Command) (f : InFlight) :
    let d := (s.domainAt f.domain.toNat).desc
    let r := s.slotAt f.slot.toNat
    (∃ code, grantCheck c f d r = some code ∧
      s.slotCommand c f = (s.grant .command).complete (.onSlot code f.slot.toNat r.gen)) ∨
    (grantCheck c f d r = none ∧ ∃ view,
      s.slotCommand c f = { ((s.grant .command).setSlot f.slot.toNat (editedRecord c f d r)).complete
        (.onSlot .done f.slot.toNat (editedRecord c f d r).gen) with bindingView := view }) := by
  unfold State.slotCommand
  simp only
  split
  · left; exact ⟨_, ‹_›, rfl⟩
  · right
    refine ⟨‹_›, ?_⟩
    split
    · exact ⟨_, rfl⟩
    · exact ⟨s.bindingView, rfl⟩

theorem grantCheck_none {c : Command} {f : InFlight} {d : Descriptor} {r : Slot} (h : grantCheck c f d r = none) :
    d.owns f.slot.toNat = true ∧ (namesHandle c f.flags = true → r.state ≠ .free ∧ r.gen = f.gen) ∧
      wrongState c r.state = false ∧ badRecord c f.flags f.staged.bindingWords = false ∧ occupied c f.flags r.state = false := by
  unfold grantCheck at h
  repeat' split at h
  all_goals simp_all

/-! ### Completions (R148) -/

/-- A completion changes one domain's record, RESULT, and for SNAPSHOT its window. -/
inductive CompletedAs (s : State) (f : InFlight) : Command → DomainRecord → Prop
  | exchange : CompletedAs s f .exchange (s.domainAt f.domain.toNat).exchange
  | setState (st : DomainState) : CompletedAs s f .setState { s.domainAt f.domain.toNat with state := st }
  | counters : CompletedAs s f .counters ((s.domainAt f.domain.toNat).setCounters f.flags f.value)
  | clearConditions (set : BitVec 8) : CompletedAs s f .clearConditions ((s.domainAt f.domain.toNat).clearConditions set)
  | reinit (flag : flag0 f.flags = true) : CompletedAs s f .snapshot (s.domainAt f.domain.toNat).reinit
  | kept (c : Command) (which : c = .snapshot ∨ c = .setDescriptor) : CompletedAs s f c (s.domainAt f.domain.toNat)
  | load (pass : (s.domainAt f.domain.toNat).refusesActive (descriptorOf f.staged.domainWords) = false) :
    CompletedAs s f .setDescriptor ((s.domainAt f.domain.toNat).load (descriptorOf f.staged.domainWords))
  | pass (c : Command) (which : c = .scan ∨ c = .sweep) : CompletedAs s f c { s.domainAt f.domain.toNat with cursor := none }

theorem setDomain_domainAt (s : State) (n : Nat) : s.setDomain n (s.domainAt n) = s := by
  unfold State.setDomain
  have : s.domains.setIfInBounds n (s.domainAt n) = s.domains := by
    apply Vector.ext
    intro i hi
    rw [Vector.getElem_setIfInBounds]
    split
    · subst_vars; simp [State.domainAt, hi]
    · rfl
  rw [this]

theorem completionOf_some {s t : State} {f : InFlight} {c : Command} (h : s.completionOf f c = some t) :
    ∃ d r snapshot pulse, CompletedAs s f c d ∧ r.count = 0 ∧
      t = { (s.setDomain f.domain.toNat d).complete r with snapshot := snapshot, pulse := pulse } := by
  have judged (d : DomainRecord) :
      ∃ pulse, s.domainDone f.domain.toNat d = { (s.setDomain f.domain.toNat d).complete (.plain .done) with pulse := pulse } := by
    unfold State.domainDone State.judgeFrom
    split
    · exact ⟨true, rfl⟩
    · exact ⟨_, rfl⟩
  unfold State.completionOf at h
  split at h
  · injection h with h; subst h
    obtain ⟨p, e⟩ := judged _; exact ⟨_, _, s.snapshot, p, .exchange, rfl, e⟩
  · injection h with h; subst h
    obtain ⟨p, e⟩ := judged _; exact ⟨_, _, s.snapshot, p, .setState _, rfl, e⟩
  · injection h with h; subst h
    obtain ⟨p, e⟩ := judged _; exact ⟨_, _, s.snapshot, p, .counters, rfl, e⟩
  · injection h with h; subst h
    obtain ⟨p, e⟩ := judged _; exact ⟨_, _, s.snapshot, p, .clearConditions _, rfl, e⟩
  · injection h with h; subst h
    simp only
    split
    · rename_i hf
      obtain ⟨p, e⟩ := judged (s.domainAt f.domain.toNat).reinit
      exact ⟨_, _, _, p, .reinit hf, rfl, by rw [e]⟩
    · obtain ⟨p, e⟩ := judged (s.domainAt f.domain.toNat)
      exact ⟨_, _, _, p, .kept _ (.inl rfl), rfl, by rw [e]⟩
  · injection h with h; subst h
    simp only
    split
    · refine ⟨_, .plain .domainOn, s.snapshot, s.pulse, .kept _ (.inr rfl), rfl, ?_⟩
      rw [setDomain_domainAt]; rfl
    · rename_i hf
      obtain ⟨p, e⟩ := judged ((s.domainAt f.domain.toNat).load (descriptorOf f.staged.domainWords))
      exact ⟨_, _, s.snapshot, p, .load (by simpa using hf), rfl, e⟩
  · injection h with h; subst h
    exact ⟨_, _, s.snapshot, s.pulse, .pass _ (.inl rfl), rfl, rfl⟩
  · injection h with h; subst h
    exact ⟨_, _, s.snapshot, s.pulse, .pass _ (.inr rfl), rfl, rfl⟩
  all_goals cases h

end Sys2Proof.Machine
end

