-- ==== Sys2Proof/Laws/Words.lean ====
section
/-! SUPPORT. The layouts as numbers: fields of a word by their bits, words put together from fields, and the validity checks of R37, R46,
R48 and R165, the levels of Table 9-3 and the criteria of Table 11-5 as they stand in Safety.lean. -/

namespace Sys2Proof.Machine

/-! ### Fields -/

theorem toNat_field (w : Word) (lo len : Nat) : (field w lo len).toNat = bitsAt w lo len := by
  simp [field, bitsAt, BitVec.extractLsb'_toNat, Nat.shiftRight_eq_div_pow]

theorem toNat_getLsbD (w : Word) (i : Nat) : (w.getLsbD i).toNat = bitsAt w i 1 := by
  rw [BitVec.getLsbD, Nat.testBit_eq_decide_div_mod_eq, bitsAt]
  have := Nat.mod_two_eq_zero_or_one (w.toNat / 2 ^ i)
  rcases this with h | h <;> simp [h]

theorem getLsbD_iff (w : Word) (i : Nat) : w.getLsbD i = true ↔ bitsAt w i 1 = 1 := by
  rw [← toNat_getLsbD]; cases w.getLsbD i <;> simp

theorem getLsbD_false_iff (w : Word) (i : Nat) : w.getLsbD i = false ↔ bitsAt w i 1 = 0 := by
  rw [← toNat_getLsbD]; cases w.getLsbD i <;> simp

/-- A flag is clear or set. -/
theorem bitsAt_one_cases (w : Word) (i : Nat) : bitsAt w i 1 = 0 ∨ bitsAt w i 1 = 1 := by
  unfold bitsAt; omega

theorem field_eq_iff (w : Word) (lo len : Nat) (c : BitVec len) : field w lo len = c ↔ bitsAt w lo len = c.toNat := by
  rw [← toNat_field, BitVec.toNat_eq]

/-- A word put together from fields is the sum of its fields at their places. -/
theorem toNat_append_sum {m n : Nat} (x : BitVec m) (y : BitVec n) : (x ++ y).toNat = x.toNat * 2 ^ n + y.toNat := by
  rw [BitVec.toNat_append, ← Nat.shiftLeft_add_eq_or_of_lt y.isLt, Nat.shiftLeft_eq]

theorem toNat_bit (b : Bool) : (bit b).toNat = b.toNat := by cases b <;> rfl

/-! ### Words of windows (R179, R185) -/

/-- A word of a window at a position it has. -/
theorem wordAt_eq {n : Nat} (v : Vector Word n) {i : Nat} (h : i < n) : wordAt v i = v[i] := by
  simp [wordAt, h]

theorem wordAt_past {n : Nat} (v : Vector Word n) {i : Nat} (h : n ≤ i) : wordAt v i = 0 := by
  simp [wordAt, h]

theorem shownBindingWord_eq (v : Vector Word 16) {i : Nat} (h : i < 16) :
    shownBindingWord v i = if 5 ≤ i ∧ i ≤ 7 ∧ bitsAt v[3] 8 8 = 0 then 0 else v[i] &&& bindingPositions[i] := by
  have e : field v[3] 8 8 = 0 ↔ bitsAt v[3] 8 8 = 0 := field_eq_iff ..
  simp only [shownBindingWord, wordAt_eq _ h, e]

theorem shownBindingWord_past (v : Vector Word 16) {i : Nat} (h : 16 ≤ i) : shownBindingWord v i = 0 := by
  simp [shownBindingWord, wordAt_past _ h]

theorem shownDomainWord_eq (v : Vector Word 24) {i : Nat} (h : i < 24) : shownDomainWord v i = (v[i] &&& domainPositions[i]) := by
  simp [shownDomainWord, wordAt_eq _ h]

theorem shownDomainWord_past (v : Vector Word 24) {i : Nat} (h : 24 ≤ i) : shownDomainWord v i = 0 := by
  simp [shownDomainWord, wordAt_past _ h]

/-! ### Validity (R37, R46, R48) -/

theorem verdictValid_iff (w : Word) : verdictValid w = true ↔ ¬ badVerdict w := by
  simp only [verdictValid, badVerdict, toNat_field, Bool.and_eq_true, decide_eq_true_eq]; omega

theorem segment_inBounds_iff (w : Word) : (segmentOf w).inBounds = true ↔ ¬ badSegment w := by
  simp only [segmentOf, Segment.inBounds, badSegment, toNat_field, Bool.and_eq_true, decide_eq_true_eq]; omega

theorem descriptorValid_iff (v : Vector Word 24) : descriptorValid v = true ↔ ¬ badDescriptor v := by
  simp only [descriptorValid, badDescriptor, Bool.and_eq_true, segment_inBounds_iff, verdictValid_iff]; tauto

theorem domainStateOf_isSome (c : Byte) : (domainStateOf c).isSome = true ↔ c.toNat ≤ 2 := by
  unfold domainStateOf
  have e0 : (0 : Byte).toNat = 0 := rfl
  have e1 : (1 : Byte).toNat = 1 := rfl
  have e2 : (2 : Byte).toNat = 2 := rfl
  repeat' split
  all_goals simp_all only [← BitVec.toNat_inj, Option.isSome_some, Option.isSome_none, true_iff, false_iff, Bool.false_eq_true]
  all_goals omega

theorem domainValid_iff (v : Vector Word 24) : domainValid v = true ↔ ¬ badDescriptor v ∧ bitsAt v[0] 24 8 ≤ 2 := by
  simp only [domainValid, Bool.and_eq_true, descriptorValid_iff, domainStateOf_isSome, toNat_field]

theorem maxPrefix_netAddressOf {n : Nat} (f : BitVec n) (a b c d : Word) :
    (netAddressOf f a b c d).maxPrefix = if f.toNat = 0 then 32 else 128 := by
  unfold netAddressOf; split <;> rfl

theorem bindingValid_iff (v : Vector Word 16) : bindingValid v = true ↔ ¬ badBinding v := by
  simp only [bindingValid, badBinding, netPresent, portsPresent, maxPrefix_netAddressOf, Bool.and_eq_true, Bool.or_eq_true,
    Bool.not_eq_true', getLsbD_false_iff, verdictValid_iff, decide_eq_true_eq, beq_iff_eq, field_eq_iff, toNat_field]
  have h15 := bitsAt_one_cases v[1] 15
  have h14 := bitsAt_one_cases v[1] 14
  have e2 : (2 : Byte).toNat = 2 := rfl
  have e3 : (3 : Byte).toNat = 3 := rfl
  rw [e2, e3]
  rw [not_or, not_or, not_or, not_or]
  by_cases h0 : bitsAt v[3] 8 8 = 0
  · rw [if_pos h0]
    constructor
    · rintro ⟨⟨⟨⟨a, b⟩, c⟩, d⟩, e⟩; exact ⟨by omega, by omega, by omega, d, by omega⟩
    · rintro ⟨a, b, c, d, e⟩; exact ⟨⟨⟨⟨by omega, by omega⟩, by omega⟩, d⟩, by omega⟩
  · rw [if_neg h0]
    constructor
    · rintro ⟨⟨⟨⟨a, b⟩, c⟩, d⟩, e⟩; exact ⟨by omega, by omega, by omega, d, by omega⟩
    · rintro ⟨a, b, c, d, e⟩; exact ⟨⟨⟨⟨by omega, by omega⟩, by omega⟩, d⟩, by omega⟩

/-! ### What commands use (Table 9-3) and pass criteria (Table 11-5) -/

theorem usesSlot_iff (c : Command) : usesSlot c = true ↔ c ∈ slotCommands := by cases c <;> decide

theorem levelNeeded_toNat (d : DomainRecord) (c : Command) : (levelNeeded d c).toNat = d.desc.needs c := by
  cases c <;> rfl

theorem commandLevel_toNat (rpl : Byte) : (commandLevel rpl).toNat = min rpl.toNat 3 := by
  unfold commandLevel
  split
  · simp; omega
  · simp only [BitVec.toNat_setWidth]; omega

theorem criteriaValid_iff (flags : Word) : criteriaValid flags = true ↔ ¬ (bitsAt flags 8 2 = 3 ∨ bitsAt flags 10 2 = 3) := by
  simp only [criteriaValid, Bool.and_eq_true, bne_iff_ne, ne_eq, field_eq_iff]
  have : (3 : BitVec 2).toNat = 3 := rfl
  rw [this]; omega

theorem criteriaOf_segment (flags : Word) : (criteriaOf flags).segment = segmentAsked flags := by
  simp only [criteriaOf, segmentAsked, getLsbD_iff]

theorem depth_levelOf (c : BitVec 2) : (levelOf c).depth = c.toNat := by
  revert c; decide

theorem yesNoAny_fits (c : BitVec 2) (b : Bool) : (yesNoAnyOf c).fits b = true ↔ (c.toNat = 1 → b = true) ∧ (c.toNat = 2 → b = false) := by
  revert c b; decide

/-- A visit selects a slot exactly when it is not FREE and fits every criterion (R165). -/
theorem selected_iff (flags : Word) (r : Slot) : selected (criteriaOf flags) r = true ↔ r.state ≠ .free ∧ fitsCriteria flags r := by
  simp only [selected, fitsCriteria, criteriaOf, Bool.and_eq_true, Bool.or_eq_true, decide_eq_true_eq, depth_levelOf, yesNoAny_fits,
    toNat_field, Bool.not_eq_true', getLsbD_iff]
  cases r.state <;> simp only [ne_eq, reduceCtorEq, not_true_eq_false, not_false_eq_true, getLsbD_iff, and_assoc, true_and, false_and,
    Bool.false_eq_true]

end Sys2Proof.Machine
end

