-- ==== Sys2Proof/Tests/Slice0.lean ====
section
/-! SUPPORT. Tests on small states: ill-formed terms, frames written out from the tables, single events from the spec's worked examples,
and for every statement with hypotheses a state that meets them. -/

set_option maxRecDepth 20000

open Sys2Proof Sys2Proof.Machine

namespace Sys2Proof.Tests

/-! ### Small states -/

/-- Segments 0..1 and 2..3, every level 3, learning allowed, nothing masked. -/
def demoDescriptor : Descriptor :=
  { DomainRecord.reset.desc with
    active := ⟨0, 2⟩, standby := ⟨2, 2⟩, lookupLevel := 3, learnLevel := 3, editLevel := 3, learning := true, mask := 0x00 }

def demoDomain : DomainRecord := { DomainRecord.reset with state := .on, desc := demoDescriptor }

/-- The same with the lookup level 0: every request is above it while LINK_LEVEL is 3. -/
def strictDomain : DomainRecord := { demoDomain with desc := { demoDescriptor with lookupLevel := 0 } }

/-- A LIVE binding of domain 3 that matches every request. -/
def demoSlot : Slot :=
  { Slot.free 7 with state := .live, domain := 3, role := .either, verdict := { action := .forward, cls := 1, group := 2, mark := 3 } }

/-- Out of INIT, with domain 3 and slot 0 as given and everything else at reset. -/
def idleState (d : DomainRecord) (r : Slot) : State := ({ State.reset with engine := .idle }.setDomain 3 d).setSlot 0 r

def demoKey : Key := { role := .source, addr := Addr.zero, net := none, port := none, proto := none }

def demoLookup : Request := { tag := 5, domain := 3, rpl := 3, question := .lookup true demoKey 100 }
def demoProbe : Request := { demoLookup with question := .probe demoKey }
def demoTouch (gen : Byte) : Request := { demoLookup with question := .touch 0 gen }

/-- The Search Engine holds one request, and its claim waits. -/
def holdingState (d : DomainRecord) (r : Slot) (q : Request) : State :=
  { idleState d r with queue := [q], holding := true, searchClaim := true }

def demoOperands : Operands := { rpl := 0, slot := 0, gen := 7, domain := 3, flags := 0, value := 0 }

/-- A command in flight for domain 3 and slot 0. -/
def demoFlight (c : Command) (flags value : Word) (staged : Staged) (p : Progress) : InFlight :=
  { command := some c, level := 0, domain := 3, slot := 0, gen := 7, flags := flags, value := value, staged := staged, progress := p }

/-- Out of INIT, with a COMMAND frame in progress: the next operand byte is a take. -/
def takingState (d : DomainRecord) (r : Slot) : State := { idleState d r with frame := .opened .command }

def busyState (d : DomainRecord) (r : Slot) (f : InFlight) : State :=
  { idleState d r with engine := .busy f, commandClaim := f.progress.claims }

/-- A walk in flight about to step slot 0. -/
def walkingState (d : DomainRecord) (r : Slot) (k : Nat) : State :=
  { idleState d r with walk := some { k := k, next := 0 }, ageingClaim := true }

/-- The next state of an outcome; the reset state where there is none. -/
def nextOf (o : Out) : State := match o with | .next t => t | .fault _ | .refused _ => State.reset

/-- An outcome is a next state. -/
def isNext (o : Out) : Bool := match o with | .next _ => true | .fault _ | .refused _ => false

/-- A valid staging binding record: LIVE, ROLE EITHER, no optional part, FORWARD. -/
def demoBinding : Vector Word 16 := #v[0x02000000, 0x02000000, 0, 0, 0, 0, 0, 0, 0, 0x01020304, 0, 0, 0, 0, 0, 0]

/-! ### Terms that are no events of their row -/

theorem test_wellFormed_refuses_a_named_opcode : Instr.wellFormed (.unknownCommand 0x10 demoOperands) = false := by decide
theorem test_wellFormed_takes_an_unnamed_opcode : Instr.wellFormed (.unknownCommand 0x19 demoOperands) = true := by decide
theorem test_wellFormed_refuses_the_summary_code : Instr.wellFormed (.frameError (.code 0x06)) = false := by decide
theorem test_wellFormed_takes_the_other_codes :
    Instr.wellFormed (.frameError (.code 0x07)) = true ∧ Instr.wellFormed (.frameError (.code 0x05)) = true := by decide
theorem test_wellFormed_refuses_registers_with_rows :
    Instr.wellFormed (.regWrite 0x02 0) = false ∧ Instr.wellFormed (.regWrite 0x03 0) = false ∧
      Instr.wellFormed (.regWrite 0x04 0) = false ∧ Instr.wellFormed (.regWrite 0x05 0) = false := by decide
theorem test_wellFormed_takes_other_addresses :
    Instr.wellFormed (.regWrite 0x01 0) = true ∧ Instr.wellFormed (.regWrite 0x06 0) = true ∧
      Instr.wellFormed (.regWrite 0xFF 0) = true := by decide

/-! ### Frames, byte by byte from Tables 11-1, 11-2 and 11-4 -/

theorem test_frame_writeSlot :
    frameEvents [0x05, 0x10, 0x00, 0x03, 0x20, 0x14, 0x0C, 0x00, 0x00, 0x00, 0x01, 0x00, 0x00, 0x00, 0x00] =
      [.frameError .fall, .frameError (.code 5),
        .writeSlot { rpl := 0, slot := 800, gen := 20, domain := 12, flags := 1, value := 0 }, .frameEnd] := by decide
theorem test_frame_setState :
    frameEvents [0x05, 0x32, 0x00, 0x00, 0x00, 0x00, 0x0C, 0x00, 0x00, 0x00, 0x00, 0x00, 0x00, 0x00, 0x01] =
      [.frameError .fall, .frameError (.code 5),
        .setState { rpl := 0, slot := 0, gen := 0, domain := 12, flags := 0, value := 1 }, .frameEnd] := by decide
theorem test_frame_unknown_opcode :
    frameEvents [0x05, 0x19, 0x00, 0x00, 0x00, 0x00, 0x00, 0x00, 0x00, 0x00, 0x00, 0x00, 0x00, 0x00, 0x00] =
      [.frameError .fall, .frameError (.code 5),
        .unknownCommand 0x19 { rpl := 0, slot := 0, gen := 0, domain := 0, flags := 0, value := 0 }, .frameEnd] := by decide
theorem test_frame_control : frameEvents [0x02, 0x02, 0x00, 0x02, 0x00, 0x01] =
      [.frameError .fall, .frameError (.code 2), .controlWrite 0x00020001#32, .frameEnd] := by decide
theorem test_frame_ageStep : frameEvents [0x02, 0x03, 0x00, 0x00, 0x00, 0x32] =
      [.frameError .fall, .frameError (.code 2), .ageStepWrite 50#32, .frameEnd] := by decide
theorem test_frame_status_read : frameEvents [0x01, 0x01, 0, 0, 0, 0] =
      [.frameError .fall, .frameError (.code 1), .statusRead (.address 1), .statusRead .sent, .frameEnd] := by
  decide
theorem test_frame_status_read_cut_short : frameEvents [0x01, 0x01, 0, 0, 0] =
      [.frameError .fall, .frameError (.code 1), .statusRead (.address 1), .frameEnd] := by decide
theorem test_frame_window_write :
    frameEvents [0x04, 0x01, 0x02, 0xAA, 0xBB, 0xCC, 0xDD, 0x11] =
      [.frameError .fall, .frameError (.code 4), .windowWrite (.header 1 2), .windowWrite (.word 0xAABBCCDD#32), .frameEnd] := by decide
theorem test_frame_window_read :
    frameEvents [0x03, 0x04, 0x00, 0, 0, 0, 0, 0, 0, 0, 0] =
      [.frameError .fall, .frameError (.code 3), .windowRead (.header 4 0), .windowRead .word, .windowRead .word, .frameEnd] := by decide
theorem test_frame_summary : frameEvents [0x06, 0, 0, 0, 0] = [.frameError .fall, .summary .code, .summary .word, .frameEnd] := by decide
theorem test_frame_error : frameEvents [0x07, 0x00] = [.frameError .fall, .frameError (.code 7), .frameEnd] := by decide
/-- A frame without a byte, and a COMMAND frame that CS_N cuts short before its last operand byte. -/
theorem test_frame_empty : frameEvents [] = [.frameError .fall, .frameEnd] := by decide
theorem test_frame_command_cut_short :
    frameEvents [0x05, 0x3F, 0, 0, 0, 0, 0, 0, 0, 0, 0, 0, 0, 0] = [.frameError .fall, .frameError (.code 5), .frameEnd] := by decide
theorem test_every_opcode_is_read_back : ∀ c ∈ Command.all, commandOfOpcode c.opcode = some c := by decide
theorem test_command_all_is_all : ∀ c : Command, c ∈ Command.all := by intro c; cases c <;> decide

/-! ### Single events, from the rules and the worked examples -/

/-- R178: the registers' reset values as section 11.6 gives them. -/
theorem test_reset_registers :
    State.reset.register 0 = 0x10160001#32 ∧ State.reset.register 2 = 0x00030000#32 ∧ State.reset.register 3 = 0x19#32 ∧
      State.reset.register 5 = 7#32 := by decide

/-- 5.8: a LOOKUP that learns takes the lowest FREE slot with GEN plus one, FRAMES 1 and OCTETS 100. -/
theorem test_learn :
    let t := nextOf (exec .lookupSearchEvent (holdingState demoDomain (Slot.free 2) demoLookup))
    (t.slotAt 0).state = .provisional ∧ (t.slotAt 0).gen = 3 ∧ (t.slotAt 0).frames = 1 ∧ (t.slotAt 0).octets = 100 ∧
      (t.domainAt 3).counters.learned = 1 ∧ t.queue = [] := by decide

/-- 5.8: with no FREE slot left, FULL and MISS are raised together, and FULL, unmasked, decides. -/
theorem test_full :
    let d : DomainRecord := { demoDomain with desc := { demoDescriptor with active := ⟨2, 0⟩, standby := ⟨2, 2⟩, mask := 0xEF } }
    let t := nextOf (exec .lookupSearchEvent (holdingState d (Slot.free 2) demoLookup))
    t.responses = [{ tag := 5, outcome := .fault, condition := some .full, handle := none, verdict := none }] ∧
      (t.domainAt 3).sticky = 0x18 ∧ (t.domainAt 3).counters.misses = 1 := by decide

/-- 5.9, first order: IDLE 18 and k = 3 reach PROV_PERIOD 20; the slot is FREE with its GEN, and AGED is counted and raised. -/
theorem test_provisional_expiry :
    let d : DomainRecord := { demoDomain with desc := { demoDescriptor with provPeriod := 20, period1 := 10, period2 := 10 } }
    let r : Slot := { demoSlot with state := .provisional, learned := true, idle := 18 }
    let t := nextOf (exec .walkStep (walkingState d r 3))
    t.slotAt 0 = Slot.free 7 ∧ (t.domainAt 3).counters.aged = 1 ∧ (t.domainAt 3).sticky = 0x01 ∧
      t.walk = some { k := 3, next := 1 } := by decide

/-- 5.9, second order: confirmed, the binding passes REST1 and reaches REST2 in one step. -/
theorem test_levels_passed :
    let d : DomainRecord := { demoDomain with desc := { demoDescriptor with provPeriod := 20, period1 := 10, period2 := 10 } }
    let t := nextOf (exec .walkStep (walkingState d { demoSlot with idle := 18 } 3))
    (t.slotAt 0).idle = 21 ∧ (t.slotAt 0).level = .rest2 ∧ (t.slotAt 0).state = .live := by decide

/-- R113: FRAMES one below its top reaches it and raises WRAP. -/
theorem test_frames_reach_the_top :
    let t := nextOf (exec .lookupSearchEvent (holdingState demoDomain { demoSlot with frames := 0xFFFFFFFE } demoLookup))
    (t.slotAt 0).frames = 0xFFFFFFFF ∧ (t.domainAt 3).sticky = 0x02 := by decide

/-- R99: a fourth tick is lost, and raises AGE_OVERRUN. -/
theorem test_overrun :
    let s : State := { idleState demoDomain demoSlot with pendingTicks := 3, ageInterval := some 25 }
    let t := nextOf (exec .ageTimerExpiry s)
    t.pendingTicks = 3 ∧ t.deviceSticky = 4 ∧ t.ageInterval = some 25 := by decide

/-- R154: WRITE_SLOT at its grant, with GEN plus one modulo 256. -/
theorem test_writeSlot_granted :
    let t := nextOf (exec .commandGrant
      (busyState demoDomain (Slot.free 255) (demoFlight .writeSlot 0 0 (.binding demoBinding) .grant)))
    (t.slotAt 0).state = .live ∧ (t.slotAt 0).gen = 0 ∧ (t.slotAt 0).domain = 3 ∧
      (t.slotAt 0).verdict = { action := .forward, cls := 2, group := 3, mark := 4 } ∧ t.engine = .idle ∧
      t.result = { code := .done, slot := 0, gen := 0, cursor := none, count := 0 } := by decide

/-- R117: READ_SLOT shows READ_PENDING as it was, and clears it. -/
theorem test_readSlot_granted :
    let t := nextOf (exec .commandGrant
      (busyState demoDomain { demoSlot with readPending := true } (demoFlight .readSlot 0 0 .absent .grant)))
    t.bindingView[0] = 0x02070300#32 ∧ t.bindingView[1] = 0x02000200#32 ∧ (t.slotAt 0).readPending = false := by decide

/-- R168: a SCAN that selects a slot reports it with the offset after it. -/
theorem test_scan_found :
    let t := nextOf (exec .passVisit (busyState demoDomain demoSlot (demoFlight .scan 0x10 0 .absent (.visit 0 0 0))))
    t.result = { code := .found, slot := 0, gen := 7, cursor := some ⟨.active, 1⟩, count := 0 } ∧
      (t.domainAt 3).cursor = some ⟨.active, 1⟩ ∧ t.engine = .idle := by decide

/-- R39: an examination that finds a binding ends with STRANDED. -/
theorem test_stranded :
    let t := nextOf (exec .descriptorExaminationGrant
      (busyState demoDomain demoSlot (demoFlight .setDescriptor 0 0 .absent (.examine 0))))
    t.result = { code := .stranded, slot := 0, gen := 7, cursor := none, count := 0 } ∧ t.engine = .idle := by decide

/-- R66 and Table 11-9: in INIT every request is answered NOT_READY; out of it LENGTH 0 is MALFORMED. -/
theorem test_arrivals :
    (nextOf (exec (.requestArrival demoLookup.words) State.reset)).responses = [.bare 5 .notReady] ∧
      (nextOf (exec (.requestArrival { demoLookup with question := .lookup true demoKey 0 }.words) (idleState demoDomain demoSlot))).responses =
        [.bare 5 .malformed] := by decide

/-- R145: a take at a slot far into the table, and the claim it places. -/
theorem test_take :
    let t := nextOf (exec (.hold { demoOperands with slot := 1023 }) (takingState demoDomain demoSlot))
    t.commandClaim = true ∧ t.nextGrant = some .command := by decide

/-- R188: a full reset in the middle of a COMMAND frame ends it; its last operand byte then changes nothing, and REFUSED stays clear. -/
theorem test_reset_ends_a_command_frame :
    let s := nextOf (exec .resetNAssert (takingState demoDomain demoSlot))
    let t := nextOf (exec (.hold demoOperands) s)
    s.frame = .ignoring ∧ isNext (exec (.hold demoOperands) s) = true ∧ t.refused = false ∧ t.frame = .ignoring ∧ s.sdo = .zero := by
  decide

/-- R181: operand bytes without a COMMAND frame in progress are no event. -/
theorem test_no_command_outside_its_frame :
    isNext (exec (.hold demoOperands) (idleState demoDomain demoSlot)) = false ∧
      isNext (exec (.hold demoOperands) { idleState demoDomain demoSlot with frame := .opened .regWrite }) = false := by decide

/-- R176: SDO before, at the start of, and during a REG_READ of ID. -/
theorem test_sdo :
    let s := nextOf (exec (.frameError .fall) State.reset)
    let t := nextOf (exec (.frameError (.code 1)) s)
    State.reset.sdo = .notDriven ∧ s.sdo = .zero ∧ t.sdo = .zero ∧
      (nextOf (exec (.statusRead (.address 0)) t)).sdo = .word 0x10160001#32 := by decide

/-- R179: a word discarded in INIT, or past the window's end, moves no position. -/
theorem test_discarded_word :
    (nextOf (exec (.windowWrite (.word 9)) { State.reset with frame := .windowWrite 0 3 })).frame = .windowWrite 0 3 ∧
      (nextOf (exec (.windowWrite (.word 9)) { idleState demoDomain demoSlot with frame := .windowWrite 0 16 })).frame =
        .windowWrite 0 16 ∧
      (nextOf (exec (.windowWrite (.word 9)) { idleState demoDomain demoSlot with frame := .windowWrite 0 3 })).frame =
        .windowWrite 0 4 := by decide

/-- What a staging window shows at a position after a write of ones there. -/
def shownAfterOnes (window : Byte) (i : Nat) : Word :=
  (nextOf (exec (.windowWrite (.word 0xFFFFFFFF)) { idleState demoDomain demoSlot with frame := .windowWrite window i })).windowWord window i

/-- Tables 11-6 and 11-7: positions that are not listed read zero, words 14 and 15, or 18 to 23, among them. -/
theorem test_unlisted_positions_read_zero :
    [0, 1, 2, 10, 12, 14, 15].map (shownAfterOnes 0) = [0xFFFFFF03#32, 0xFF3FFEFF, 0xFFFFFFFF, 0xFFFF, 0xFF, 0, 0] ∧
      [0, 1, 2, 7, 17, 18, 23].map (shownAfterOnes 1) = [0xFF000000#32, 0xFF, 0xFC000FFF, 0xFFFF0000, 0xFFFFFFFF, 0, 0] := by decide

/-- A staging binding record of ones, but for its FAMILY. -/
def onesWithFamily (f : Word) : Vector Word 16 := (Vector.replicate 16 0xFFFFFFFF#32).set 3 (f <<< 8)

/-- Table 11-6: a V4 address shows in word 4 alone, a V6 address in words 4 to 7. -/
theorem test_words_of_a_V4_address_read_zero :
    [4, 5, 6, 7, 8].map (shownBindingWord (onesWithFamily 0)) = [0xFFFFFFFF#32, 0, 0, 0, 0xFFFFFFFF] ∧
      [4, 5, 6, 7, 8].map (shownBindingWord (onesWithFamily 1)) = List.replicate 5 0xFFFFFFFF#32 := by decide

/-- The words of a record whose every field is ones lie in the listed positions, and show unchanged in a staging window. -/
theorem test_records_lie_in_the_listed_positions :
    let r : Slot := { demoSlot with
      state := .held, gen := 0xFF, domain := 0xF, addrMask := 0x3F, role := .either, level := .rest3, proto := some 0xFF
      net := some { address := .v6 (.allOnes 128), pre := 128, invert := true }, ports := some { lo := 0xFFFF, hi := 0xFFFF }
      idle := 0xFFFF, pinned := true, learned := true, readPending := true, frames := .allOnes 32, octets := .allOnes 40 }
    (List.range 16).map (shownBindingWord r.words) = r.words.toList ∧
      (List.range 24).map (shownDomainWord demoDomain.words) = demoDomain.words.toList := by decide

/-- Table 11-10: a HIT with tag 5 on slot 800 with GEN 20 and a FORWARD verdict. -/
theorem test_response_words :
    Response.words { tag := 5, outcome := .hit, condition := none, handle := some ⟨800, 20⟩, verdict := some ⟨.forward, 1, 2, 3⟩ } =
      #v[0x14060320#32, 0x00000014#32, 0x01010203#32] := by decide

/-- R9 and R26 hold of nothing by the types alone: this state breaks both. -/
theorem test_tableInvariant_says_something : ¬ TableInvariant (idleState { demoDomain with desc := { demoDescriptor with standby := ⟨1, 2⟩ } } demoSlot) := by
  intro h; exact absurd (h.own 3 (by decide)) (by decide)

/-! ### States that meet the statements' hypotheses -/

theorem witness_StepTakesTheFrontEvent :
    { State.reset with pending := [.powerOn, .takeHead] }.pending = .powerOn :: [.takeHead] ∧ State.reset.pending = [] := by decide

theorem witness_EventsAnswerExactlyWhereDue :
    isNext (exec .powerOn State.reset) = true ∧ due .powerOn State.reset = true ∧
      isNext (exec .takeHead State.reset) = false ∧ due .takeHead State.reset = false := by decide

theorem witness_FullResetsAndTheEndOfInit :
    ((takingState demoDomain demoSlot).engine = .idle ∧ (takingState demoDomain demoSlot).frame = .opened .command ∧
        demoOperands.rpl = 0) ∧
      (State.reset.inInit = true ∧ State.reset.resetHeld = false) ∧
      (idleState demoDomain demoSlot).inInit = false ∧ { State.reset with resetHeld := true }.resetHeld = true := by decide

/-- A request with RPL 3 for domain 3, as words. -/
def demoWords : RequestWords := demoLookup.words

theorem witness_LinkResetArrivalsAndTheHeadOfTheQueue :
    { State.reset with linkReset := true }.linkReset = true ∧
      (State.reset.linkReset = false ∧ State.reset.inInit = true) ∧
      ((idleState demoDomain demoSlot).linkReset = false ∧ (idleState demoDomain demoSlot).inInit = false ∧
        requestValid (Vector.replicate 8 0xFFFFFFFF#32) = false ∧ requestValid demoWords = true ∧
        (idleState demoDomain demoSlot).queue.length < 8) ∧
      8 ≤ { idleState demoDomain demoSlot with queue := List.replicate 8 demoLookup }.queue.length := by decide

theorem witness_TakingTheHead_off :
    let s : State := { idleState DomainRecord.reset demoSlot with queue := [demoLookup] }
    s.holding = false ∧ s.queue = demoLookup :: [] ∧ (s.domainOf demoLookup).state = .off := by decide

theorem witness_TakingTheHead_held :
    let s : State := { idleState demoDomain demoSlot with queue := [demoLookup] }
    s.holding = false ∧ s.queue = demoLookup :: [] ∧ (s.domainOf demoLookup).inService :=
  ⟨by decide, by decide, by decide, by decide⟩

theorem witness_KeyTestsFollowTheTables :
    Role.source ≠ .either ∧ (32#8).toNat ≤ 32 ∧ (0#8).toNat ≤ 32 ∧ (128#8).toNat ≤ 128 ∧ (33#8).toNat ≤ 128 := by decide

theorem serves_holding (d : DomainRecord) (r : Slot) (q : Request) : (holdingState d r q).serves q [] := ⟨rfl, rfl⟩

theorem witness_OffAtTheGrantChangesNothing :
    (holdingState DomainRecord.reset demoSlot demoLookup).serves demoLookup [] ∧
      ((holdingState DomainRecord.reset demoSlot demoLookup).domainOf demoLookup).state = .off ∧
      ((holdingState { demoDomain with restoring := true } demoSlot demoLookup).domainOf demoLookup).restoring = true :=
  ⟨serves_holding .., by decide, by decide⟩

theorem witness_LookupAboveItsLevelIsDenied :
    let s := holdingState strictDomain demoSlot demoLookup
    s.serves demoLookup [] ∧ demoLookup.question = .lookup true demoKey 100 ∧ (s.domainOf demoLookup).inService ∧
      ¬ s.admits demoLookup :=
  ⟨serves_holding .., rfl, ⟨by decide, by decide⟩, by unfold State.admits; decide⟩

theorem admits_demo (r : Slot) (q : Request) (h : q.domain = 3) : (holdingState demoDomain r q).admits q := by
  have e : (holdingState demoDomain r q).domainOf q = demoDomain := by
    simp only [State.domainOf, h]; rfl
  unfold State.admits
  rw [e]
  have h1 := (holdingState demoDomain r q).linkLevel.isLt
  have h2 := q.rpl.isLt
  show _ ≤ 3
  omega

theorem witness_LookupHitIsCountedAndAnswered :
    let s := holdingState demoDomain demoSlot demoLookup
    s.serves demoLookup [] ∧ demoLookup.question = .lookup true demoKey 100 ∧ (s.domainOf demoLookup).inService ∧
      s.admits demoLookup ∧ (s.domainOf demoLookup).desc.active.inBounds = true ∧
      s.search (s.domainOf demoLookup).desc.active demoKey = some 0 ∧ (s.slotAt 0).state = .live :=
  ⟨serves_holding .., rfl, ⟨by decide, by decide⟩, admits_demo _ _ rfl, by decide, by decide, by decide⟩

theorem witness_LookupOnHeldRaisesHeld :
    let s := holdingState demoDomain { demoSlot with state := .held } demoLookup
    s.serves demoLookup [] ∧ demoLookup.question = .lookup true demoKey 100 ∧ (s.domainOf demoLookup).inService ∧
      s.admits demoLookup ∧ (s.domainOf demoLookup).desc.active.inBounds = true ∧
      s.search (s.domainOf demoLookup).desc.active demoKey = some 0 ∧ (s.slotAt 0).state = .held :=
  ⟨serves_holding .., rfl, ⟨by decide, by decide⟩, admits_demo _ _ rfl, by decide, by decide, by decide⟩

theorem witness_LookupLearnsTheRecordOfTable51 :
    let s := holdingState demoDomain (Slot.free 2) demoLookup
    s.serves demoLookup [] ∧ demoLookup.question = .lookup true demoKey 100 ∧ (s.domainOf demoLookup).inService ∧
      s.admits demoLookup ∧ (s.domainOf demoLookup).desc.active.inBounds = true ∧
      s.search (s.domainOf demoLookup).desc.active demoKey = none ∧ (s.domainOf demoLookup).state = .on ∧
      (s.domainOf demoLookup).desc.learning = true ∧
      max s.linkLevel.toNat demoLookup.rpl.toNat ≤ (s.domainOf demoLookup).desc.learnLevel.toNat ∧
      s.firstFree (s.domainOf demoLookup).desc.active = some 0 :=
  ⟨serves_holding .., rfl, ⟨by decide, by decide⟩, admits_demo _ _ rfl, by decide, by decide, by decide, by decide, by decide,
    by decide⟩

/-- No attempt: the domain does not learn. -/
theorem witness_LookupMiss_without_an_attempt :
    let s := holdingState { demoDomain with desc := { demoDescriptor with learning := false } } (Slot.free 2) demoLookup
    s.serves demoLookup [] ∧ (s.domainOf demoLookup).inService ∧
      max s.linkLevel.toNat demoLookup.rpl.toNat ≤ (s.domainOf demoLookup).desc.lookupLevel.toNat ∧
      s.search (s.domainOf demoLookup).desc.active demoKey = none ∧ (s.domainOf demoLookup).desc.learning = false :=
  ⟨serves_holding .., ⟨by decide, by decide⟩, by decide, by decide, by decide⟩

/-- An attempt in a full segment: the active segment is empty. -/
theorem witness_LookupMiss_after_an_attempt :
    let s := holdingState { demoDomain with desc := { demoDescriptor with active := ⟨9, 0⟩ } } (Slot.free 2) demoLookup
    s.serves demoLookup [] ∧ (s.domainOf demoLookup).inService ∧
      max s.linkLevel.toNat demoLookup.rpl.toNat ≤ (s.domainOf demoLookup).desc.lookupLevel.toNat ∧
      s.search (s.domainOf demoLookup).desc.active demoKey = none ∧ (s.domainOf demoLookup).desc.learning = true ∧
      (s.domainOf demoLookup).state = .on ∧ s.firstFree (s.domainOf demoLookup).desc.active = none :=
  ⟨serves_holding .., ⟨by decide, by decide⟩, by decide, by decide, by decide, by decide, by decide⟩

theorem witness_ProbeChangesNothing_found :
    let s (st : SlotState) := holdingState demoDomain { demoSlot with state := st } demoProbe
    ∀ st ∈ [SlotState.live, .provisional, .held], (s st).serves demoProbe [] ∧ demoProbe.question = .probe demoKey ∧
      ((s st).domainOf demoProbe).inService ∧ (s st).admits demoProbe ∧
      (s st).search ((s st).domainOf demoProbe).desc.active demoKey = some 0 ∧ ((s st).slotAt 0).state = st := by
  intro s st h
  refine ⟨serves_holding .., rfl, ⟨by decide +revert, by decide +revert⟩, admits_demo _ _ rfl, ?_, ?_⟩
  all_goals
    simp only [List.mem_cons, List.not_mem_nil, or_false] at h
    rcases h with rfl | rfl | rfl <;> decide

theorem witness_ProbeChangesNothing_none :
    let s := holdingState demoDomain (Slot.free 0) demoProbe
    s.serves demoProbe [] ∧ s.admits demoProbe ∧ s.search (s.domainOf demoProbe).desc.active demoKey = none ∧
      ¬ (holdingState strictDomain demoSlot demoProbe).admits demoProbe :=
  ⟨serves_holding .., admits_demo _ _ rfl, by decide, by unfold State.admits; decide⟩

theorem witness_TouchRefreshesOrRaises :
    let s := holdingState demoDomain demoSlot (demoTouch 7)
    s.serves (demoTouch 7) [] ∧ (demoTouch 7).question = .touch 0 7 ∧ (s.domainOf (demoTouch 7)).inService ∧ s.admits (demoTouch 7) ∧
      ((s.domainOf (demoTouch 7)).desc.active.has 0 = true ∧ (s.slotAt 0).state ≠ .free ∧ (s.slotAt 0).gen = 7) ∧
      (s.slotAt 0).gen ≠ 8 ∧ ¬ (holdingState strictDomain demoSlot (demoTouch 7)).admits (demoTouch 7) :=
  ⟨serves_holding .., rfl, ⟨by decide, by decide⟩, admits_demo _ _ rfl, by decide, by decide, by unfold State.admits; decide⟩

theorem witness_HandlesInResponsesNameBindings :
    let s := holdingState demoDomain demoSlot demoLookup
    let t := nextOf (exec demoLookup.question.row s)
    s.serves demoLookup [] ∧ (s.domainOf demoLookup).desc.active.inBounds = true ∧ isNext (exec demoLookup.question.row s) = true ∧
      ∃ a h, t.responses = s.responses ++ [a] ∧ a.handle = some h :=
  ⟨serves_holding .., by decide, by decide,
    { tag := 5, outcome := .hit, condition := none, handle := some ⟨0, 7⟩, verdict := some demoSlot.verdict }, ⟨0, 7⟩, by decide, rfl⟩

theorem witness_CountersStayInBalance :
    let s := holdingState demoDomain demoSlot demoLookup
    (s.domainAt 3).counters.balanced ∧ (s.domainAt 3).counters.belowTop ∧ isNext (exec .lookupSearchEvent s) = true ∧
      (nextOf (exec .lookupSearchEvent s)).domainAt 3 ≠ s.domainAt 3 :=
  ⟨by unfold Counters.balanced; decide, by unfold Counters.belowTop; decide, by decide, by decide⟩

theorem witness_GrantsFollowTheCycle :
    (holdingState demoDomain demoSlot demoLookup).nextGrant = some .search ∧
      isNext (exec .lookupSearchEvent (holdingState demoDomain demoSlot demoLookup)) = true ∧
      (walkingState demoDomain demoSlot 1).nextGrant = some .ageing ∧ isNext (exec .walkStep (walkingState demoDomain demoSlot 1)) = true ∧
      isNext (exec .commandGrant (busyState demoDomain demoSlot (demoFlight .pin 0 0 .absent .grant))) = true := by decide

theorem witness_TicksAreCountedAndTakenByAWalk :
    let s : State := { idleState demoDomain demoSlot with ageInterval := some 25, pendingTicks := 2 }
    (s.ageInterval.isSome = true ∧ s.pendingTicks < 3) ∧ 3 ≤ { s with pendingTicks := 3 }.pendingTicks ∧ State.reset.ageInterval = none ∧
      (s.walk = none ∧ 0 < s.pendingTicks ∧ s.inInit = false) ∧ State.reset.pendingTicks = 0 := by decide

theorem witness_WalkStepActsUnderR102Alone :
    let s := walkingState demoDomain demoSlot 1
    let acts (s : State) : Prop :=
      (s.slotAt 0).state ≠ .free ∧ (s.domainAt (s.slotAt 0).domain.toNat).state = .on ∧
        (s.domainAt (s.slotAt 0).domain.toNat).restoring = false ∧
        (s.domainAt (s.slotAt 0).domain.toNat).desc.active.has 0 = true ∧ (s.slotAt 0).pinned = false
    (s.nextGrant = some .ageing ∧ s.walk = some { k := 1, next := 0 } ∧ 0 < 1024) ∧
      (acts s ∧ ageBinding demoDescriptor 1 demoSlot = some { demoSlot with idle := 1 }) ∧
      ¬ acts (walkingState demoDomain { demoSlot with pinned := true } 1) ∧
      ageBinding { demoDescriptor with provPeriod := 1 } 1 { demoSlot with state := .provisional } = none := by decide

/-- The clauses' boundaries: PROV_PERIOD reached exactly, and each threshold of 10, 20, 30, 40 reached exactly and missed by one. -/
theorem witness_BindingsAgeThroughTheThresholds :
    let d : Descriptor := { demoDescriptor with period1 := 10, period2 := 10, period3 := 10, period4 := 10, autoRetire := true }
    d.reachedLevel 9 = .active ∧ d.reachedLevel 10 = .rest1 ∧ d.reachedLevel 20 = .rest2 ∧ d.reachedLevel 30 = .rest3 ∧
      ageBinding d 1 { demoSlot with idle := 39 } = none ∧ (ageBinding d 1 { demoSlot with idle := 38 }).isSome = true ∧
      ageBinding { d with provPeriod := 5 } 1 { demoSlot with state := .provisional, idle := 4 } = none ∧
      (ageBinding { d with provPeriod := 5 } 1 { demoSlot with state := .provisional, idle := 3 }).isSome = true := by decide

theorem witness_CommandFramesAreRefusedInInitAndBusy :
    let b : State :=
      { busyState demoDomain demoSlot (demoFlight .hold 0 0 .absent .grant) with frame := .opened .command }
    Instr.ofCommand demoOperands .hold = .hold demoOperands ∧
      ({ State.reset with frame := .opened .command }.frame = .opened .command ∧ { State.reset with frame := .opened .command }.inInit = true) ∧
      (b.frame = .opened .command ∧ b.engine = .busy (demoFlight .hold 0 0 .absent .grant)) ∧
      { State.reset with frame := .ignoring }.frame = .ignoring := by
  decide

theorem ready_taking (d : DomainRecord) (r : Slot) : (takingState d r).readyToTake := ⟨rfl, rfl⟩

theorem witness_TakeWritesTheCommandInFlight :
    (takingState demoDomain demoSlot).readyToTake ∧ Command.hold ≠ .reset ∧ { demoOperands with rpl := 9 }.rpl ≠ 0 ∧
      Command.hold ∈ slotCommands ∧ demoOperands.slot.toNat ≤ 1023 ∧ demoOperands.domain.toNat ≤ 15 ∧
      min demoOperands.rpl.toNat 3 ≤ ((takingState demoDomain demoSlot).domainAt 3).desc.needs .hold :=
  ⟨ready_taking .., by decide, by decide, by decide, by decide, by decide, by decide⟩

/-- A refusal by each of the three levels, at the boundary of each operand, and a command that passes. -/
theorem witness_TakeChecksRefuseInOrder :
    let d := ((takingState strictDomain demoSlot).domainAt 3).desc
    (takingState strictDomain demoSlot).readyToTake ∧ commandOfOpcode 0x19 = none ∧ { demoOperands with rpl := 1 }.rpl ≠ 0 ∧
      1023 < { demoOperands with slot := 1024 }.slot.toNat ∧ 15 < { demoOperands with domain := 16 }.domain.toNat ∧
      demoOperands.domain.toNat ≤ 15 ∧ demoOperands.slot.toNat ≤ 1023 ∧ d.lookupLevel.toNat < min 1 3 ∧
      (Descriptor.reset.editLevel.toNat < min 1 3 ∧ 0 < min 1 3) ∧ min demoOperands.rpl.toNat 3 ≤ d.needs .readSlot ∧
      min 3 3 ≤ d.needs .sweep ∧ Command.sweep ∉ slotCommands :=
  ⟨ready_taking .., by decide, by decide, by decide, by decide, by decide, by decide, by decide, by decide, by decide, by decide,
    by decide⟩

theorem witness_PassesStartAtTheirOffset :
    let s := takingState { demoDomain with cursor := some ⟨.active, 1⟩ } demoSlot
    let d := s.domainAt 3
    s.readyToTake ∧ demoOperands.domain.toNat ≤ 15 ∧
      (min demoOperands.rpl.toNat 3 ≤ d.desc.lookupLevel.toNat ∧ min demoOperands.rpl.toNat 3 ≤ d.desc.editLevel.toNat) ∧
      (bitsAt 0x300 8 2 = 3 ∧ bitsAt 0xC00 10 2 = 3) ∧
      (bitsAt 0x2 8 2 ≠ 3 ∧ bitsAt 0x2 10 2 ≠ 3 ∧ bitsAt 0x2 0 1 ≠ 1 ∧ bitsAt 0x2 1 1 = 1) ∧
      (d.cursor = some ⟨.active, 1⟩ ∧ 1 < d.desc.active.size) ∧ (bitsAt 1 0 1 = 1 ∧ (Segment.mk 0 0).size ≤ 0) :=
  ⟨ready_taking .., by decide, by decide, by decide, by decide, by decide, by decide⟩

theorem witness_DescriptorTakeChecks :
    let s := takingState demoDomain demoSlot
    let good : Vector Word 24 := demoDomain.words
    let overlapping : Vector Word 24 := { demoDomain with desc := { demoDescriptor with standby := ⟨1, 2⟩ } }.words
    s.readyToTake ∧ demoOperands.domain.toNat ≤ 15 ∧ demoOperands.rpl = 0 ∧
      badDescriptor (Vector.replicate 24 0xFFFFFFFF#32) ∧ ¬ badDescriptor good ∧ s.overlaps 3 (descriptorOf good) = false ∧
      ¬ badDescriptor overlapping ∧ (descriptorOf overlapping).active.disjoint (descriptorOf overlapping).standby = false :=
  ⟨ready_taking .., by decide, by decide, by unfold badDescriptor badSegment badVerdict; decide,
    by unfold badDescriptor badSegment badVerdict; decide, by decide, by unfold badDescriptor badSegment badVerdict; decide, by decide⟩

/-- The bounds of R25 and the ranges of a verdict, at their edges. -/
theorem witness_badSegment_badVerdict :
    (¬ badSegment 0x03FF0001#32 ∧ ¬ badSegment 0x00000400#32 ∧ badSegment 0x03FF0002#32 ∧ badSegment 0x04000000#32 ∧
        badSegment 0x00000401#32) ∧
      (¬ badVerdict 0x02073FFF#32 ∧ badVerdict 0x03000000#32 ∧ badVerdict 0x00080000#32 ∧ badVerdict 0x00004000#32) := by
  unfold badSegment badVerdict; decide

theorem grants_busy (d : DomainRecord) (r : Slot) (c : Command) (fl v : Word) (st : Staged) (p : Progress) (h : p.claims = true) :
    (busyState d r (demoFlight c fl v st p)).grantsCommand (demoFlight c fl v st p) c p := by
  refine ⟨?_, rfl, rfl, rfl⟩
  have hc : (busyState d r (demoFlight c fl v st p)).claims .command = true := h
  show List.find? _ [Requester.search, .command, .ageing] = some .command
  have hs : (busyState d r (demoFlight c fl v st p)).claims .search = false := rfl
  rw [List.find?_cons_of_neg (by rw [hs]; decide), List.find?_cons_of_pos hc]

/-- One refusal of each kind, and a command whose checks pass. -/
theorem witness_RefusedSlotCommandsChangeNothing :
    let f (c : Command) (fl : Word) := demoFlight c fl 0 (.binding demoBinding) .grant
    (busyState demoDomain demoSlot (f .pin 0)).grantsCommand (f .pin 0) .pin .grant ∧
      grantCheck .pin { f .pin 0 with slot := 4 } demoDescriptor demoSlot = some .notInSegment ∧
      grantCheck .pin { f .pin 0 with gen := 8 } demoDescriptor demoSlot = some .stale ∧
      grantCheck .release (f .release 0) demoDescriptor demoSlot = some .wrongState ∧
      (grantCheck .setVerdict { f .setVerdict 0 with staged := .binding (Vector.replicate 16 0xFFFFFFFF#32) } demoDescriptor demoSlot =
        some .badRecord ∧ badBinding (Vector.replicate 16 0xFFFFFFFF#32) ∧ badVerdict 0xFFFFFFFF#32 ∧ ¬ badBinding demoBinding) ∧
      grantCheck .writeSlot (f .writeSlot 0) demoDescriptor demoSlot = some .occupied ∧
      grantCheck .pin (f .pin 0) demoDescriptor demoSlot = none :=
  ⟨grants_busy _ _ _ _ _ _ _ rfl, by decide, by decide, by decide, by unfold badBinding badVerdict; decide, by decide, by decide⟩

theorem witness_WriteSlotWritesTheWholeRecord :
    let f := demoFlight .writeSlot 1 0 (.binding demoBinding) .grant
    let s := busyState demoDomain demoSlot f
    s.grantsCommand f .writeSlot .grant ∧ grantCheck .writeSlot f (s.domainAt 3).desc (s.slotAt 0) = none :=
  ⟨grants_busy _ _ _ _ _ _ _ rfl, by decide⟩

theorem witness_EditsChangeTheirFieldsAlone :
    let f (c : Command) := demoFlight c 0 0 (.binding demoBinding) .grant
    let r (c : Command) : Slot :=
      { demoSlot with state := if c = .release then .held else if c = .confirm then .provisional else .live }
    ∀ c ∈ [Command.setVerdict, .hold, .release, .confirm, .pin, .unpin, .retire],
      (busyState demoDomain (r c) (f c)).grantsCommand (f c) c .grant ∧ grantCheck c (f c) demoDescriptor (r c) = none := by
  intro f r c h
  refine ⟨grants_busy _ _ _ _ _ _ _ rfl, ?_⟩
  simp only [List.mem_cons, List.not_mem_nil, or_false] at h
  rcases h with rfl | rfl | rfl | rfl | rfl | rfl | rfl <;> decide

theorem witness_ReadSlotCopiesThenClears :
    let f := demoFlight .readSlot 0 0 .absent .grant
    let s := busyState demoDomain demoSlot f
    s.grantsCommand f .readSlot .grant ∧ (s.domainAt 3).desc.active.has 0 = true :=
  ⟨grants_busy _ _ _ _ _ _ _ rfl, by decide⟩

/-- The four clauses: a selected slot, the segment's last offset, the 64th visit, and a visit in between. -/
theorem witness_VisitsFindRetireOrMoveOn :
    let f (c : Command) (o v : Nat) := demoFlight c 0x10 0 .absent (.visit o v 0)
    (busyState demoDomain demoSlot (f .scan 0 0)).grantsCommand (f .scan 0 0) .scan (.visit 0 0 0) ∧
      (demoSlot.state ≠ .free ∧ fitsCriteria 0x10 demoSlot) ∧ ¬ fitsCriteria 0x10 { demoSlot with pinned := true } ∧
      (busyState demoDomain demoSlot (f .sweep 1 0)).grantsCommand (f .sweep 1 0) .sweep (.visit 1 0 0) ∧
      (demoDescriptor.segment .active).size ≤ 1 + 1 ∧ 0 + 1 < (demoDescriptor.segment .active).size ∧ 64 ≤ 63 + 1 ∧ 0 + 1 < 64 ∧
      (f .sweep 1 0).domain.toNat ≤ 15 :=
  ⟨grants_busy _ _ _ _ _ _ _ rfl, by decide, by decide, grants_busy _ _ _ _ _ _ _ rfl, by decide, by decide, by decide, by decide,
    by decide⟩

/-- Slots 0 to 3 leave for a descriptor with empty segments: slot 0 holds a binding, or is FREE and slot 1 comes next; after slot 3 none
is left. -/
theorem witness_ExaminationEndsAtABinding :
    let f (c : Command) (i : Nat) := demoFlight c 0 0 .absent (.examine i)
    (busyState demoDomain demoSlot (f .setDescriptor 0)).grantsCommand (f .setDescriptor 0) .setDescriptor (.examine 0) ∧
      (busyState demoDomain demoSlot (f .restore 3)).grantsCommand (f .restore 3) .restore (.examine 3) ∧
      ((busyState demoDomain demoSlot (f .setDescriptor 0)).slotAt 0).state ≠ .free ∧
      ((busyState demoDomain demoSlot (f .restore 3)).slotAt 3).state = .free ∧
      (demoDescriptor.owns 1 = true ∧ (descriptorOf (f .setDescriptor 0).staged.domainWords).owns 1 = false) ∧
      (∀ m, m < 8 → 3 < m → demoDescriptor.owns m = false) :=
  ⟨grants_busy _ _ _ _ _ _ _ rfl, grants_busy _ _ _ _ _ _ _ rfl, by decide, by decide, by decide, by decide⟩

theorem awaits_busy (d : DomainRecord) (r : Slot) (c : Command) (fl v : Word) (st : Staged) :
    (busyState d r (demoFlight c fl v st .complete)).awaitsCompletion (demoFlight c fl v st .complete) c :=
  ⟨rfl, rfl, rfl, show (3#8).toNat ≤ 15 by decide⟩

theorem witness_RefusedAndEmptyCommandsComplete :
    let f := demoFlight .scan 0 0 .absent (.refused .badRecord)
    ((busyState demoDomain demoSlot f).engine = .busy f ∧ f.progress = .refused .badRecord) ∧
      (busyState demoDomain demoSlot (demoFlight .sweep 0 0 .absent .complete)).awaitsCompletion
        (demoFlight .sweep 0 0 .absent .complete) .sweep :=
  ⟨⟨rfl, rfl⟩, awaits_busy ..⟩

/-- A descriptor with another active segment is refused while the domain is ON, and loads while it is OFF; the RESTORE's STATE code 1 is ON. -/
theorem witness_SetDescriptorAndRestoreLoadTheirCopies :
    let moved : Vector Word 24 := { demoDomain with desc := { demoDescriptor with active := ⟨8, 2⟩ } }.words
    let f (c : Command) := demoFlight c 0 0 (.domain moved) .complete
    (busyState demoDomain demoSlot (f .setDescriptor)).awaitsCompletion (f .setDescriptor) .setDescriptor ∧
      demoDomain.state ≠ .off ∧ (descriptorOf moved).active ≠ demoDescriptor.active ∧ DomainRecord.reset.state = .off ∧
      (busyState demoDomain demoSlot (f .restore)).awaitsCompletion (f .restore) .restore ∧
      domainStateOf (field moved[0] 24 8) = some .on :=
  ⟨awaits_busy .., by decide, by decide, by decide, awaits_busy .., by decide⟩

theorem witness_DomainCommands :
    (takingState demoDomain demoSlot).readyToTake ∧ demoOperands.domain.toNat ≤ 15 ∧ demoOperands.rpl = 0 ∧
      { demoOperands with rpl := 255 }.rpl ≠ 0 := ⟨ready_taking .., by decide, by decide, by decide⟩

theorem witness_ExchangeSwapsTheSegments :
    (busyState demoDomain demoSlot (demoFlight .exchange 0 0 .absent .complete)).awaitsCompletion
      (demoFlight .exchange 0 0 .absent .complete) .exchange := awaits_busy ..

/-- Codes 0, 1 and 2 name a state, and 3 none. -/
theorem witness_SetStateSetsTheState :
    (∀ v : Word, (busyState demoDomain demoSlot (demoFlight .setState 0 v .absent .complete)).awaitsCompletion
      (demoFlight .setState 0 v .absent .complete) .setState) ∧
      (0x102#32).toNat % 256 = 2 ∧ (0x101#32).toNat % 256 = 1 ∧ (0x100#32).toNat % 256 = 0 ∧ ¬ (0x103#32).toNat % 256 ≤ 2 :=
  ⟨fun _ => awaits_busy .., by decide, by decide, by decide, by decide⟩

theorem witness_SnapshotCopiesAndMayReinit :
    (∀ fl : Word, (busyState demoDomain demoSlot (demoFlight .snapshot fl 0 .absent .complete)).awaitsCompletion
      (demoFlight .snapshot fl 0 .absent .complete) .snapshot) ∧ flag0 0 = false ∧ flag0 1 = true :=
  ⟨fun _ => awaits_busy .., by decide, by decide⟩

theorem witness_CountersSetsAllEight :
    (busyState demoDomain demoSlot (demoFlight .counters 2 0x7FFFFFFF .absent .complete)).awaitsCompletion
      (demoFlight .counters 2 0x7FFFFFFF .absent .complete) .counters := awaits_busy ..

theorem witness_ClearConditionsRemovesTheNamedMembers :
    (busyState demoDomain demoSlot (demoFlight .clearConditions 0 0x18 .absent .complete)).awaitsCompletion
      (demoFlight .clearConditions 0 0x18 .absent .complete) .clearConditions := awaits_busy ..

/-- In PULSE mode an enabled summary that rises: a retirement in a domain that masks nothing. -/
theorem witness_PulsesStartExactlyAtARise :
    let s : State := { walkingState { demoDomain with desc := { demoDescriptor with provPeriod := 1 } }
      { demoSlot with state := .provisional } 1 with attnMode := .pulse, attnEnable := true }
    let t := nextOf (exec .walkStep s)
    isNext (exec .walkStep s) = true ∧ t.attnMode = .pulse ∧ s.enabledSummary = false ∧ t.enabledSummary = true ∧ s.pulse = false ∧
      t.pulse = true ∧ isNext (exec .attnPulseEnd t) = true ∧ (nextOf (exec .attnPulseEnd t)).pulse = false := by decide

theorem witness_AttentionSummaryAndLine :
    State.reset.attnMode = .level ∧ { State.reset with attnMode := .pulse }.attnMode = .pulse ∧
      (idleState { demoDomain with sticky := 0x08 } demoSlot).summary = true ∧
      (idleState { demoDomain with sticky := 0x08 } demoSlot).domainAttention.getLsbD 3 = true := by decide

/-- Every address, window identifier and position falls under one clause: the last of each and the first past it. -/
theorem witness_RegistersWindowsAndSummaryShowTheirOwners :
    7 < (8#8).toNat ∧ 15 < 16 ∧ 23 < 24 ∧ (16 ≤ 16 ∧ (0#8 = 0 ∨ 0#8 = 2)) ∧ (24 ≤ 24 ∧ (1#8 = 1 ∨ 1#8 = 3)) ∧ (4 ≤ 4 ∧ 4#8 = 4) ∧
      4 < (5#8).toNat ∧ 7 < 8 ∧
      (5 ≤ 5 ∧ 7 ≤ 7 ∧ bitsAt (onesWithFamily 0)[3] 8 8 = 0) ∧ ¬ 5 ≤ 4 ∧ ¬ 8 ≤ 7 ∧ bitsAt (onesWithFamily 1)[3] 8 8 ≠ 0 := by decide

theorem witness_RegisterWritesSetTheirFields :
    let r : State := { State.reset with frame := .opened .regWrite }
    let s : State := { idleState demoDomain demoSlot with frame := .opened .regWrite }
    (r.frame = .opened .regWrite ∧ r.inInit = true) ∧ (s.frame = .opened .regWrite ∧ s.inInit = false) ∧
      { State.reset with frame := .ignoring }.frame = .ignoring ∧ (1#8).toNat < 2 ∧ 5 < (6#8).toNat := by decide

theorem witness_ReadsSendAndClearFrameErrorAlone :
    { State.reset with frame := .opened .regRead }.frame = .opened .regRead ∧ { State.reset with frame := .selected }.frame = .selected ∧
      { State.reset with frame := .opened .windowRead }.frame = .opened .windowRead ∧
      { State.reset with frame := .regRead 1 9 }.frame = .regRead 1 9 ∧ { State.reset with frame := .summary 0 9 }.frame = .summary 0 9 ∧
      { State.reset with frame := .windowRead 4 3 9 }.frame = .windowRead 4 3 9 := by decide

/-- The last word of each staging window, the first past it, INIT, and another window. -/
theorem witness_WindowWritesFrameCodesEdgesAndSdo :
    let s (f : Frame) : State := { idleState demoDomain demoSlot with frame := f }
    ((s (.opened .windowWrite)).frame = .opened .windowWrite) ∧
      ((s (.windowWrite 0 15)).frame = .windowWrite 0 15 ∧ (s (.windowWrite 0 15)).inInit = false ∧ 15 < 16) ∧
      ((s (.windowWrite 1 23)).frame = .windowWrite 1 23 ∧ (s (.windowWrite 1 23)).inInit = false ∧ 23 < 24) ∧
      (((0#8) = 0 ∧ 16 ≤ 16) ∧ ((1#8) = 1 ∧ 24 ≤ 24) ∧ 1 < (2#8).toNat) ∧
      ({ State.reset with frame := .windowWrite 1 0 }.frame = .windowWrite 1 0 ∧ State.reset.inInit = true) ∧
      State.reset.frame = .idle ∧ (s .selected).frame = .selected ∧ (0#8).toNat = 0 ∧ 6 < (7#8).toNat ∧
      (s .ignoring).frame = .ignoring := by decide

theorem witness_CommandAndRegisterFramesRoundTrip :
    { demoOperands with slot := 800 }.slot.toNat = (3#8).toNat * 2 ^ 8 + (0x20#8).toNat ∧
      { demoOperands with flags := 0x01020304 }.flags.toNat =
        (1#8).toNat * 2 ^ 24 + (2#8).toNat * 2 ^ 16 + (3#8).toNat * 2 ^ 8 + (4#8).toNat ∧
      Command.hold.opcode = 0x12 ∧ commandOfOpcode 0x19 = none ∧ 14 < 15 ∧ 5 < 6 := by decide

theorem witness_DomainRecordLayoutAndRoundTrip :
    ¬ badVerdict demoDomain.words[8] ∧ demoDomain.desc.active.inBounds = true ∧ demoDomain.desc.standby.inBounds = true := by
  unfold badVerdict; decide

theorem witness_BindingRecordLayoutAndRoundTrip :
    ¬ badBinding demoBinding ∧ (bitsAt 0x0200E000 15 1 = 1 ∧ bitsAt 0x0200E000 14 1 = 1 ∧ bitsAt 0x0200E000 13 1 = 1) ∧
      (bitsAt demoBinding[1] 15 1 = 0 ∧ bitsAt demoBinding[1] 14 1 = 0 ∧ bitsAt demoBinding[1] 13 1 = 0) ∧
      ¬ badBinding #v[0x02000000, 0x0200E000, 0, 0x180, 0, 0, 0, 0, 0x00050005, 0x01020304, 0, 0, 0, 0, 0, 0] ∧
      demoSlot.state = .live ∧ demoSlot.wellFormed = true ∧ { demoSlot with state := .held }.wellFormed = true := by
  unfold badBinding badVerdict; decide

theorem witness_RequestAndResponseLayouts :
    (requestValid demoLookup.words = true ∧ bitsAt demoLookup.words[0] 30 2 = 0) ∧
      (requestValid demoProbe.words = true ∧ bitsAt demoProbe.words[0] 30 2 = 1) ∧
      (requestValid (demoTouch 7).words = true ∧ bitsAt (demoTouch 7).words[0] 30 2 = 2) ∧
      demoLookup.wellFormed = true ∧ demoProbe.wellFormed = true ∧ (demoTouch 7).wellFormed = true ∧
      some Condition.miss ∈ [none, some Condition.denied, some .stale, some .held, some .full, some .miss] := by decide

/-- The state after a full reset with the end of the clearing in the queue. -/
def readyToLeaveInit : State := { State.reset with pending := [.tableClearingCompletion] }

theorem slotAt_ready (i : Nat) : readyToLeaveInit.slotAt i = .free 0 := (slotAt_congr rfl i).trans (slotAt_reset i)
theorem domainAt_ready (n : Nat) : readyToLeaveInit.domainAt n = .reset := (domainAt_congr rfl n).trans (domainAt_reset n)

theorem witness_step : isNext (step readyToLeaveInit) = true ∧ (nextOf (step readyToLeaveInit)).engine = .idle := by decide

theorem witness_StepKeepsTheLinkInvariant : LinkInvariant readyToLeaveInit :=
  ⟨by decide, rfl, by decide, by decide, by decide, by decide⟩

theorem witness_StepKeepsTheAgeingInvariant : AgeingInvariant readyToLeaveInit :=
  ⟨rfl, fun w h => (nomatch h), by decide, by decide, by decide⟩

theorem witness_StepKeepsTheSlotsWellFormed : SlotsInvariant readyToLeaveInit := by
  intro i _; rw [slotAt_ready]; decide

theorem witness_StepKeepsTheTableInvariant : TableInvariant readyToLeaveInit where
  bounds n _ := by rw [domainAt_ready]; decide
  own n _ := by rw [domainAt_ready]; decide
  apart n m _ _ _ := by rw [domainAt_ready, domainAt_ready]; decide
  owned i _ h := by rw [slotAt_ready] at h; exact absurd rfl h
  grant f h := nomatch h
  examine f c i h := nomatch h
  complete f c h := nomatch h

theorem witness_StepKeepsTheRestoringInvariant : RestoringInvariant readyToLeaveInit where
  inFlight f h := nomatch h
  only n _ h := by rw [domainAt_ready] at h; exact absurd h (by decide)

theorem witness_StepKeepsThePassInvariant : PassInvariant readyToLeaveInit where
  claim := rfl
  cursor n c _ h := by rw [domainAt_ready] at h; exact absurd h (by intro e; cases e)
  visit f o v r h := nomatch h
  count := by decide

theorem witness_StepKeepsTheInitInvariant : InitInvariant readyToLeaveInit := ⟨fun _ => rfl, by decide⟩

end Sys2Proof.Tests
end

section
/-! PROOFS. Chapter 3, Matching: what each of the five tests of a binding against a request's key compares. -/

namespace Sys2Proof.Machine

/-! ### Role and address (R50, R51) -/

theorem roleTest_iff (b k : Role) : roleTest b k = true ↔ b = .either ∨ b = k := by
  simp only [roleTest, Bool.or_eq_true, decide_eq_true_eq]

@[simp] theorem octetTest_iff (named : Bool) (b k : Byte) : octetTest named b k = true ↔ (named = true → b = k) := by
  cases named <;> simp [octetTest]

theorem addrTest_iff (mask : BitVec 6) (b k : Addr) : addrTest mask b k = true ↔
    (mask.getLsbD 5 = true → b.a0 = k.a0) ∧ (mask.getLsbD 4 = true → b.a1 = k.a1) ∧ (mask.getLsbD 3 = true → b.a2 = k.a2) ∧
    (mask.getLsbD 2 = true → b.a3 = k.a3) ∧ (mask.getLsbD 1 = true → b.a4 = k.a4) ∧
    (mask.getLsbD 0 = true → b.a5 = k.a5) := by
  simp only [addrTest, Bool.and_eq_true, octetTest_iff, and_assoc]

/-! ### Network (R52) -/

/-- The shift of `prefixEqual` moves the first `p` bits, counted from the most significant, to the end of the word. -/
theorem getMsbD_shiftedPrefix {n p j : Nat} (hp : p ≤ n) (hj : j < p) (a : BitVec n) :
    (a >>> (n - p)).getMsbD (n - p + j) = a.getMsbD j := by
  have inWord : n - p + j < n := by omega
  simp [inWord]

/-- The shift of `prefixEqual` leaves only zeros in front of the first `p` bits. -/
theorem getMsbD_beforePrefix {n p i : Nat} (hi : i < n - p) (a : BitVec n) : (a >>> (n - p)).getMsbD i = false := by
  simp [hi]

theorem prefixEqual_iff {n p : Nat} (hp : p ≤ n) (a b : BitVec n) :
    prefixEqual p a b = true ↔ ∀ j, j < p → a.getMsbD j = b.getMsbD j := by
  rw [prefixEqual, beq_iff_eq]
  constructor
  · intro shiftsEqual j hj
    rw [← getMsbD_shiftedPrefix hp hj a, shiftsEqual, getMsbD_shiftedPrefix hp hj b]
  · intro bitsEqual
    refine BitVec.eq_of_getMsbD_eq fun i hi => ?_
    by_cases before : i < n - p
    · rw [getMsbD_beforePrefix before, getMsbD_beforePrefix before]
    · obtain ⟨j, rfl⟩ := Nat.exists_eq_add_of_le (Nat.le_of_not_lt before)
      have hj : j < p := by omega
      rw [getMsbD_shiftedPrefix hp hj, getMsbD_shiftedPrefix hp hj, bitsEqual j hj]

/-- INVERT reverses the comparison of the first PREFIX bits. -/
theorem prefixEqual_bne_invert_iff {n p : Nat} (hp : p ≤ n) (a b : BitVec n) (invert : Bool) :
    (prefixEqual p a b != invert) = true ↔ ((∀ j, j < p → a.getMsbD j = b.getMsbD j) ↔ invert = false) := by
  rw [← prefixEqual_iff hp]
  cases invert <;> simp

@[simp] theorem netTest_absent (k : Option NetAddress) : netTest none k = true := rfl

@[simp] theorem netTest_noRequestNet (n : NetPart) : netTest (some n) none = false := rfl

@[simp] theorem netTest_v4_v6 (x : BitVec 32) (p : Byte) (invert : Bool) (y : BitVec 128) :
    netTest (some ⟨.v4 x, p, invert⟩) (some (.v6 y)) = false := rfl

@[simp] theorem netTest_v6_v4 (x : BitVec 128) (p : Byte) (invert : Bool) (y : BitVec 32) :
    netTest (some ⟨.v6 x, p, invert⟩) (some (.v4 y)) = false := rfl

theorem netTest_v4_v4 (x y : BitVec 32) (p : Byte) (invert : Bool) :
    netTest (some ⟨.v4 x, p, invert⟩) (some (.v4 y)) = (prefixEqual p.toNat x y != invert) := rfl

theorem netTest_v6_v6 (x y : BitVec 128) (p : Byte) (invert : Bool) :
    netTest (some ⟨.v6 x, p, invert⟩) (some (.v6 y)) = (prefixEqual p.toNat x y != invert) := rfl

/-! ### Port and protocol (R53, R54) -/

@[simp] theorem portTest_absent (k : Option (BitVec 16)) : portTest none k = true := rfl

@[simp] theorem portTest_noRequestPort (p : Ports) : portTest (some p) none = false := rfl

theorem portTest_iff (p : Ports) (q : BitVec 16) :
    portTest (some p) (some q) = true ↔ p.lo.toNat ≤ q.toNat ∧ q.toNat ≤ p.hi.toNat := by
  simp only [portTest, Bool.and_eq_true, decide_eq_true_eq]

@[simp] theorem protoTest_absent (k : Option Byte) : protoTest none k = true := rfl

@[simp] theorem protoTest_noRequestProto (p : Byte) : protoTest (some p) none = false := rfl

theorem protoTest_iff (p q : Byte) : protoTest (some p) (some q) = true ↔ p = q := by
  simp only [protoTest, beq_iff_eq]

/-- Settles O8: each test is the comparison of its rule. R52's comparison by a shift is read bit by bit in
`prefixEqual_iff`, and INVERT in `prefixEqual_bne_invert_iff`; the other clauses are the tests' own equations. -/
theorem keyTestsFollowTheTables : Obligations.KeyTestsFollowTheTables := by
  unfold Obligations.KeyTestsFollowTheTables
  refine ⟨fun b k _ => roleTest_iff b k, addrTest_iff, netTest_absent, netTest_noRequestNet, netTest_v4_v6, netTest_v6_v4,
    ?v4, ?v6, portTest_absent, portTest_noRequestPort, portTest_iff, protoTest_absent, protoTest_noRequestProto, protoTest_iff⟩
  case v4 =>
    intro x y p invert hp
    rw [netTest_v4_v4]
    exact prefixEqual_bne_invert_iff hp x y invert
  case v6 =>
    intro x y p invert hp
    rw [netTest_v6_v6]
    exact prefixEqual_bne_invert_iff hp x y invert

end Sys2Proof.Machine
end

section
/-! PROOFS. Chapter 7, Counters: READ_SLOT at its grant, and COUNTERS at its take and its completion. -/

namespace Sys2Proof.Machine

/-! ### The grant of a one-slot command (R152, R117) -/

theorem exec_commandGrant (s : State) : exec .commandGrant s = execCommandGrant s := rfl

/-- A grant that is next for a one-slot command is that command's event. -/
theorem execCommandGrant_of_grantsCommand {s : State} {f : InFlight} {c : Command} (granted : s.grantsCommand f c .grant)
    (oneSlot : usesSlot c = true) : execCommandGrant s = .next (s.slotCommand c f) := by
  obtain ⟨next, engine, command, progress⟩ := granted
  simp only [execCommandGrant, next, engine, command, progress, oneSlot, if_true]

theorem owns_iff (d : Descriptor) (i : Nat) : d.owns i = true ↔ d.active.has i = true ∨ d.standby.has i = true := by
  rw [Descriptor.owns, Bool.or_eq_true]

/-- NOT_IN_SEGMENT is the only refusal of a READ_SLOT at its grant (R116). -/
theorem grantCheck_readSlot {f : InFlight} {d : Descriptor} (owned : d.owns f.slot.toNat = true) (r : Slot) :
    grantCheck .readSlot f d r = none := by
  simp [grantCheck, owned, namesHandle, wrongState, badRecord, occupied]

@[simp] theorem readRecord_gen (readClears : Bool) (r : Slot) : (readRecord readClears r).gen = r.gen := rfl

/-- A READ_SLOT that passes its check writes its slot, BINDING_VIEW and RESULT, and the view holds the slot as it stood (R117). -/
theorem slotCommand_readSlot {s : State} {f : InFlight}
    (owned : (s.domainAt f.domain.toNat).desc.owns f.slot.toNat = true) :
    s.slotCommand .readSlot f =
      let i := f.slot.toNat
      let r := s.slotAt i
      { ((s.grant .command).setSlot i (readRecord (s.domainAt f.domain.toNat).desc.readClears r)).complete
          (.onSlot .done i r.gen) with bindingView := r.words } := by
  simp only [State.slotCommand, grantCheck_readSlot owned, editedRecord, readRecord_gen, if_true]

/-- Settles O34: the grant is READ_SLOT's event, its segment check passes, and what that event writes is `slotCommand_readSlot`. -/
theorem readSlotCopiesThenClears : Obligations.ReadSlotCopiesThenClears := by
  unfold Obligations.ReadSlotCopiesThenClears
  intro s f granted i d r inSegment
  rw [exec_commandGrant, execCommandGrant_of_grantsCommand granted rfl, slotCommand_readSlot ((owns_iff d i).mpr inSegment)]
  rfl

/-! ### Takes of commands that need effective level 0 (R28, R30, R145, R151) -/

theorem exec_counters (o : Operands) (s : State) : exec (.counters o) s = execCounters o s := rfl

/-- The effective level of a command is 0 for RPL 0 alone (R28). -/
theorem commandLevel_eq_zero_iff (rpl : Byte) : commandLevel rpl = 0 ↔ rpl = 0 := by
  rw [BitVec.toNat_eq, BitVec.toNat_eq, commandLevel_toNat]
  change min rpl.toNat 3 = 0 ↔ rpl.toNat = 0
  omega

/-- The last operand byte of a frame that names a command is, in IDLE, its take; RESET has one of its own (R145). -/
theorem commandFrame_of_readyToTake {s : State} {c : Command} (ready : s.readyToTake) (notReset : c ≠ .reset) (o : Operands) :
    commandFrame (some c) o s = .next (s.take (some c) o) := by
  obtain ⟨idle, opened⟩ := ready
  rw [commandFrame, inFrame_opened opened]
  simp [State.deliver, idle, notReset]

/-- Only the take of a RESTORE touches a domain record or the pulse (R173). -/
theorem take_of_ne_restore (s : State) {c : Command} (notRestore : c ≠ .restore) (o : Operands) :
    s.take (some c) o = { s with
      engine := .busy (s.inFlight (some c) o), refused := false
      commandClaim := (s.inFlight (some c) o).progress.claims, frame := .ignoring } := by
  obtain ⟨_, taken⟩ | ⟨restore, _⟩ := take_cases s (some c) o
  · exact taken
  · exact absurd (Option.some.inj restore) notRestore

@[simp] theorem inFlight_value (s : State) (c : Option Command) (o : Operands) : (s.inFlight c o).value = o.value := rfl

theorem inFlight_progress_of_refused {s : State} {c : Option Command} {o : Operands} {code : ResultCode}
    (refused : s.takeCheck o c = some code) : (s.inFlight c o).progress = .refused code := by
  simp only [State.inFlight, refused]

theorem inFlight_progress_of_passed {s : State} {c : Command} {o : Operands} (passed : s.takeCheck o (some c) = none) :
    (s.inFlight (some c) o).progress = s.startOf o (s.stagedFor o c) c := by
  simp only [State.inFlight, passed]

theorem takeCheck_of_ne_reset (s : State) (o : Operands) {c : Command} (notReset : c ≠ .reset) :
    s.takeCheck o (some c) =
      if usesSlot c ∧ 1023 < o.slot.toNat then some .badSlot
      else if 15 < o.domain.toNat then some .denied
      else if levelNeeded (s.domainAt o.domain.toNat) c < commandLevel o.rpl then some .denied
      else none := by
  cases c
  case reset => exact absurd rfl notReset
  all_goals rfl

/-- COUNTERS is refused with DENIED for any RPL but 0, whatever domain it names (R124, R151). -/
theorem takeCheck_counters_denied (s : State) {o : Operands} (level : o.rpl ≠ 0) :
    s.takeCheck o (some .counters) = some .denied := by
  have above : 0#2 < commandLevel o.rpl := (BitVec.pos_iff_ne_zero _).mpr (mt (commandLevel_eq_zero_iff o.rpl).mp level)
  simp [takeCheck_of_ne_reset, usesSlot, levelNeeded, above]

theorem takeCheck_counters_passed (s : State) {o : Operands} (domain : o.domain.toNat ≤ 15) (level : o.rpl = 0) :
    s.takeCheck o (some .counters) = none := by
  have levelZero : commandLevel o.rpl = 0 := (commandLevel_eq_zero_iff o.rpl).mpr level
  simp [takeCheck_of_ne_reset, usesSlot, levelNeeded, levelZero, domain]

/-- A COUNTERS frame is taken without a claim for a table grant (R124): it ends refused at the take, or its completion is next. -/
theorem exec_counters_taken {s : State} {o : Operands} (ready : s.readyToTake)
    (noClaim : (s.inFlight (some .counters) o).progress.claims = false) :
    exec (.counters o) s = .next { s with
      engine := .busy (s.inFlight (some .counters) o), refused := false, commandClaim := false, frame := .ignoring } := by
  rw [exec_counters, execCounters, commandFrame_of_readyToTake ready (by decide), take_of_ne_restore s (by decide), noClaim]

/-! ### Domain Table events that leave the attention summary (R134 to R137) -/

theorem any_attending_iff (s : State) :
    s.domains.toList.any DomainRecord.attending = true ↔ ∃ n, n < 16 ∧ (s.domainAt n).attending = true := by
  simp only [List.any_eq_true, Vector.mem_toList_iff, Vector.mem_iff_getElem]
  constructor
  · rintro ⟨_, ⟨n, hn, rfl⟩, attends⟩
    exact ⟨n, hn, by simpa [State.domainAt, hn] using attends⟩
  · rintro ⟨n, hn, attends⟩
    exact ⟨s.domains[n], ⟨n, hn, rfl⟩, by simpa [State.domainAt, hn] using attends⟩

/-- S depends on INIT, on which domains attend, and on the device conditions alone (R135). -/
theorem summary_congr {s t : State} (init : t.inInit = s.inInit) (sticky : t.deviceSticky = s.deviceSticky)
    (mask : t.deviceMask = s.deviceMask) (attends : ∀ n, n < 16 → (t.domainAt n).attending = (s.domainAt n).attending) :
    t.summary = s.summary := by
  have any : t.domains.toList.any DomainRecord.attending = s.domains.toList.any DomainRecord.attending := by
    rw [Bool.eq_iff_iff, any_attending_iff, any_attending_iff]
    exact exists_congr fun n => and_congr_right fun hn => by rw [attends n hn]
  simp only [State.summary, init, sticky, mask, any]

/-- An event that leaves the enabled summary starts no pulse (R137). -/
theorem judgeFrom_of_enabledSummary_eq {before s : State} (same : s.enabledSummary = before.enabledSummary) :
    before.judgeFrom s = s := by
  rw [State.judgeFrom, if_neg]
  rintro ⟨_, after, former⟩
  rw [same, former] at after
  cases after

/-- A completion whose record attends as the former one did changes that record and RESULT alone (R134, R148). -/
theorem domainDone_of_attending_eq {s : State} {n : Nat} {d : DomainRecord} (running : s.inInit = false)
    (attends : d.attending = (s.domainAt n).attending) : s.domainDone n d = (s.setDomain n d).complete (.plain .done) := by
  have summary : ((s.setDomain n d).complete (.plain .done)).summary = s.summary := by
    refine summary_congr (by simp [running]) (by simp) (by simp) fun m hm => ?_
    rw [domainAt_complete, domainAt_setDomain]
    split
    · next same => rw [attends, same.1]
    · rfl
  refine judgeFrom_of_enabledSummary_eq ?_
  simp only [State.enabledSummary, complete_attnEnable, setDomain_attnEnable, summary]

/-! ### The completion of COUNTERS (R124) -/

theorem exec_commandCompletion (s : State) : exec .commandCompletion s = execCommandCompletion s := rfl

theorem execCommandCompletion_of_awaitsCompletion {s t : State} {f : InFlight} {c : Command} (awaits : s.awaitsCompletion f c)
    (completed : s.completionOf f c = some t) : execCommandCompletion s = .next t := by
  obtain ⟨engine, command, progress, _⟩ := awaits
  simp only [execCommandCompletion, engine, command, progress, completed]

theorem setCounters_eq (d : DomainRecord) (flags value : Word) :
    d.setCounters flags value = { d with
      counters := if flags.getLsbD 0 = true then .all 0 else if flags.getLsbD 1 = true then .all value else d.counters } := by
  unfold DomainRecord.setCounters flag0 flag1
  split
  · rfl
  · split <;> rfl

/-- COUNTERS changes neither STICKY, MASK nor RESTORING. -/
@[simp] theorem setCounters_attending (d : DomainRecord) (flags value : Word) :
    (d.setCounters flags value).attending = d.attending := by
  rw [setCounters_eq]; rfl

/-- Settles O42: the take has no claim, whether DENIED or not, and the completion leaves every domain attending as before, so that the
record's counters and RESULT are all that changes. -/
theorem countersSetsAllEight : Obligations.CountersSetsAllEight := by
  unfold Obligations.CountersSetsAllEight
  refine ⟨?denied, ?passed, ?completion⟩
  case denied =>
    intro o s ready level
    have progress := inFlight_progress_of_refused (takeCheck_counters_denied s level)
    exact ⟨_, exec_counters_taken ready (by rw [progress]; rfl), progress⟩
  case passed =>
    intro o s ready domain level
    have progress : (s.inFlight (some .counters) o).progress = .complete :=
      inFlight_progress_of_passed (takeCheck_counters_passed s domain level)
    exact ⟨_, exec_counters_taken ready (by rw [progress]; rfl), inFlight_command .., inFlight_domain .., inFlight_flags .., inFlight_value ..,
      progress⟩
  case completion =>
    intro s f awaits d
    have running : s.inInit = false := by rw [State.inInit, awaits.1]
    rw [exec_commandCompletion, execCommandCompletion_of_awaitsCompletion awaits rfl,
      domainDone_of_attending_eq running (setCounters_attending ..), setCounters_eq]
    rfl

end Sys2Proof.Machine
end

section
/-! PROOFS. Every step: from one event to one step, and what visits, one-slot commands and completions leave alone. -/

namespace Sys2Proof.Machine

/-! ### From events to steps -/

/-- A property that does not look at the queue of events, and that every event keeps, is kept by every step. -/
theorem step_keeps {P : State → Prop} (pending : ∀ s rest, P s → P { s with pending := rest })
    (event : ∀ s c t, P s → Shape s c t → P t) (s t : State) (holds : P s) (next : step s = .next t) : P t := by
  obtain rfl | ⟨c, rest, _, shape⟩ := step_shape next
  · exact holds
  · exact event _ c t (pending s rest holds) shape

/-! ### Reading a table with one record written -/

theorem slotAt_of_write {s t : State} {i : Nat} {r : Slot} (slots : t.slots = s.slots.setIfInBounds i r) (j : Nat) :
    t.slotAt j = if i = j ∧ j < 1024 then r else s.slotAt j := by
  rw [← slotAt_setSlot]
  exact slotAt_congr slots j

theorem domainAt_of_write {s t : State} {n : Nat} {d : DomainRecord} (domains : t.domains = s.domains.setIfInBounds n d) (m : Nat) :
    t.domainAt m = if n = m ∧ m < 16 then d else s.domainAt m := by
  rw [← domainAt_setDomain]
  exact domainAt_congr domains m

/-! ### What the Command Engine's events leave alone -/

theorem inInit_of_engine_idle {s : State} (idle : s.engine = .idle) : s.inInit = false := by rw [State.inInit, idle]

theorem inInit_of_engine_busy {s : State} {f : InFlight} (busy : s.engine = .busy f) : s.inInit = false := by
  rw [State.inInit, busy]

/-- The Command Engine's own events (takes, grants, visits, examinations and completions) change slots, domain records, the engine and
its flags, the grant, the windows it writes, the frame and the pulse; the part is outside INIT before and after. -/
structure CommandFrame (s t : State) : Prop where
  before : s.inInit = false
  after : t.inInit = false
  rest : t = { s with
    slots := t.slots, domains := t.domains, lastGranted := t.lastGranted, commandClaim := t.commandClaim, engine := t.engine
    result := t.result, bindingView := t.bindingView, snapshot := t.snapshot, refused := t.refused, frame := t.frame
    pulse := t.pulse }

theorem take_commandFrame {s : State} (idle : s.engine = .idle) (c : Option Command) (o : Operands) :
    CommandFrame s (s.take c o) where
  before := inInit_of_engine_idle idle
  after := inInit_of_engine_busy (take_engine s c o)
  rest := by rw [take_frame]

theorem slotCommand_commandFrame {s : State} {f : InFlight} (busy : s.engine = .busy f) (c : Command) :
    CommandFrame s (s.slotCommand c f) := by
  have before := inInit_of_engine_busy busy
  obtain ⟨_, _, e⟩ | ⟨_, _, e⟩ := slotCommand_cases s c f <;> rw [e] <;> exact ⟨before, rfl, rfl⟩

theorem passOn_commandFrame {s g : State} (same : CommandFrame s g) (sweep : Bool) (f : InFlight) (seg : Segment) (name : SegmentName)
    (o v x : Nat) : CommandFrame s (g.passOn sweep f seg name o v x) := by
  obtain ⟨before, _, rest⟩ := same
  unfold State.passOn
  split
  · exact ⟨before, rfl, by rw [rest]; rfl⟩
  · split
    · exact ⟨before, rfl, by rw [rest]; rfl⟩
    · exact ⟨before, rfl, by rw [rest]⟩

theorem visitSlot_commandFrame {s : State} {f : InFlight} (busy : s.engine = .busy f) (sweep : Bool) (o v x : Nat) :
    CommandFrame s (s.visitSlot sweep f o v x) := by
  have before := inInit_of_engine_busy busy
  have granted : CommandFrame s (s.grant .command) := ⟨before, by simp [before], rfl⟩
  have retired (i : Nat) (r : Slot) : CommandFrame s ((s.grant .command).setSlot i r) := ⟨before, by simp [before], rfl⟩
  unfold State.visitSlot
  simp only
  split
  · split
    · exact passOn_commandFrame (retired ..) ..
    · exact ⟨before, rfl, rfl⟩
  · exact passOn_commandFrame granted ..

theorem examineNext_commandFrame {s : State} {f : InFlight} (busy : s.engine = .busy f) (i : Nat) :
    CommandFrame s ((s.grant .command).examineNext f i) := by
  refine ⟨inInit_of_engine_busy busy, inInit_of_engine_busy (examineNext_engine ..), ?_⟩
  unfold State.examineNext
  simp only
  generalize examineFrom _ _ _ = p
  rfl

theorem domainDone_commandFrame {s : State} (before : s.inInit = false) (n : Nat) (d : DomainRecord) :
    CommandFrame s (s.domainDone n d) := by
  refine ⟨before, inInit_of_engine_idle (domainDone_engine ..), ?_⟩
  unfold State.domainDone State.judgeFrom
  split <;> rfl

theorem completionOf_commandFrame {s t : State} {f : InFlight} {c : Command} (busy : s.engine = .busy f)
    (completed : s.completionOf f c = some t) : CommandFrame s t := by
  obtain ⟨_, _, _, _, _, _, rfl⟩ := completionOf_some completed
  exact ⟨inInit_of_engine_busy busy, rfl, rfl⟩

theorem judgeFrom_commandFrame {s t : State} (same : CommandFrame s t) : CommandFrame s (s.judgeFrom t) := by
  obtain ⟨before, after, rest⟩ := same
  refine ⟨before, by simp [after], ?_⟩
  unfold State.judgeFrom
  split
  · rw [rest]
  · exact rest

end Sys2Proof.Machine
end

section
/-! PROOFS. The link side's invariant (R67, R70, R71, R82). -/

namespace Sys2Proof.Machine

/-- The link side's invariant looks at four fields and at INIT, where it asks for more. -/
theorem LinkInvariant.congr {s t : State} (inv : LinkInvariant s) (queue : t.queue = s.queue) (claim : t.searchClaim = s.searchClaim)
    (holding : t.holding = s.holding) (line : t.linkReset = s.linkReset) (init : t.inInit = true → s.inInit = true) :
    LinkInvariant t where
  bound := queue ▸ inv.bound
  claim := by rw [claim, holding, inv.claim]
  head h := queue ▸ inv.head (holding ▸ h)
  init h := queue ▸ inv.init (init h)
  line h := queue ▸ inv.line (line ▸ h)
  valid := queue ▸ inv.valid

theorem LinkInvariant.command {s t : State} (inv : LinkInvariant s) (same : CommandFrame s t) : LinkInvariant t := by
  obtain ⟨_, after, rest⟩ := same
  refine inv.congr ?_ ?_ ?_ ?_ (by simp [after]) <;> rw [rest]

/-- A part with an empty queue and an EMPTY Search Engine meets it, whatever its lines and its engine. -/
theorem LinkInvariant.of_empty {s : State} (queue : s.queue = []) (claim : s.searchClaim = false) (holding : s.holding = false) :
    LinkInvariant s where
  bound := by simp [queue]
  claim := by rw [claim, holding]
  head h := by rw [holding] at h; cases h
  init _ := queue
  line _ := queue
  valid r hr := by rw [queue] at hr; cases hr

/-- A ROLE code of at most 1 names SOURCE or DESTINATION (R46). -/
theorem roleOf_ne_either {n : Nat} {c : BitVec n} (valid : c.toNat ≤ 1) : roleOf c ≠ .either := by
  unfold roleOf
  split
  · simp
  · split
    · simp
    · omega

/-- An admitted request is one the queue may hold (R46). -/
theorem requestOf_wellFormed {v : RequestWords} (valid : requestValid v = true) : (requestOf v).wellFormed = true := by
  simp only [requestValid] at valid
  simp only [Request.wellFormed, requestOf]
  split at valid
  · next lookup =>
    simp only [Bool.and_eq_true, decide_eq_true_eq] at valid
    obtain ⟨⟨role, _⟩, least, most⟩ := valid
    simp only [lookup, if_true, Bool.and_eq_true, decide_eq_true_eq]
    exact ⟨⟨roleOf_ne_either role, least⟩, most⟩
  · next notLookup =>
    split at valid
    · next probe =>
      simp only [Bool.and_eq_true, decide_eq_true_eq] at valid
      simp only [probe, if_true, Nat.one_ne_zero, if_false, decide_eq_true_eq]
      exact roleOf_ne_either valid.1
    · next notProbe => simp only [notLookup, notProbe, if_false]

/-- The queue after the head has left it. -/
theorem LinkInvariant.tail {s t : State} (inv : LinkInvariant s) {r : Request} {rest : List Request} (queue : s.queue = r :: rest)
    (left : t.queue = rest) (claim : t.searchClaim = false) (holding : t.holding = false) (line : t.linkReset = s.linkReset)
    (init : t.inInit = s.inInit) : LinkInvariant t where
  bound := by have := inv.bound; rw [queue, List.length_cons] at this; rw [left]; omega
  claim := by rw [claim, holding]
  head h := by rw [holding] at h; cases h
  init h := by have := inv.init (init ▸ h); rw [queue] at this; cases this
  line h := by have := inv.line (line ▸ h); rw [queue] at this; cases this
  valid x hx := inv.valid x (by rw [queue]; exact .tail _ (left ▸ hx))

theorem LinkInvariant.admission {s : State} (inv : LinkInvariant s) {v : RequestWords} (line : s.linkReset = false)
    (out : s.inInit = false) (valid : requestValid v = true) (room : s.queue.length < 8) :
    LinkInvariant { s with queue := s.queue ++ [requestOf v] } where
  bound := by simp only [List.length_append, List.length_singleton]; omega
  claim := inv.claim
  head _ := by simp
  init h := absurd h (by simp [State.inInit] at out ⊢; exact out)
  line h := absurd h (by simp [line])
  valid x hx := by
    obtain hx | rfl := List.mem_append.mp hx |>.imp_right List.mem_singleton.mp
    · exact inv.valid x hx
    · exact requestOf_wellFormed valid

theorem Shape.keeps_link {s t : State} {c : Instr} (inv : LinkInvariant s) (shape : Shape s c t) : LinkInvariant t := by
  cases shape with
  | same => exact inv
  | fullReset held f line => exact .of_empty rfl rfl rfl
  | linkAssert => exact .of_empty rfl rfl rfl
  | linkRelease =>
    exact { inv with line := fun h => nomatch h }
  | admitted v line out valid room => exact inv.admission line out valid room
  | headOff r rest empty queue => exact inv.tail queue rfl (inv.claim.trans empty) empty rfl (by simp [State.inInit])
  | headHeld r rest empty queue =>
    exact { inv with claim := rfl, head := fun _ => by simp [queue] }
  | searched r rest grant queue =>
    rw [searchEvent_frame]
    exact inv.tail queue rfl rfl rfl rfl rfl
  | walked w grant walk =>
    rw [walked_frame]
    exact inv.congr (by simp) (by simp) (by simp) (by simp) (by simp [State.inInit])
  | refusedBusy f busy => exact inv.congr rfl rfl rfl rfl id
  | taken k o idle level => exact inv.command (take_commandFrame idle ..)
  | slotGranted k f grant busy => exact inv.command (slotCommand_commandFrame busy k)
  | visited sweep f o v x grant busy => exact inv.command (visitSlot_commandFrame busy ..)
  | strandedRestore f i grant busy =>
    exact inv.command (judgeFrom_commandFrame ⟨inInit_of_engine_busy busy, rfl, rfl⟩)
  | completed f k t busy command progress effect => exact inv.command (completionOf_commandFrame busy effect)
  | restored f busy => exact inv.command (domainDone_commandFrame (inInit_of_engine_busy busy) ..)
  | examined k f i grant busy => exact inv.command (examineNext_commandFrame busy i)
  | strandedDescriptor f i grant busy | refusalCompleted f code busy =>
    exact inv.command ⟨inInit_of_engine_busy busy, rfl, rfl⟩
  | released | cleared | notReady | turnedAway | ticked | overran | walkStarted | refusedInInit | pulseEnded | controlWritten
  | ageStepWritten | conditionsWritten | maskWritten | framed | windowWritten =>
    exact inv.congr (by simp) (by simp) (by simp) (by simp) (by simp [State.inInit])

/-- Settles O54: the events that touch the queue or the Search Engine are arrivals, the take of the head, the search event, LINK_RESET
and a full reset; every other event leaves the four fields the invariant looks at. -/
theorem stepKeepsTheLinkInvariant : Obligations.StepKeepsTheLinkInvariant := by
  unfold Obligations.StepKeepsTheLinkInvariant
  exact step_keeps (fun s rest inv => inv.congr rfl rfl rfl rfl id) (fun _ _ _ inv shape => shape.keeps_link inv)

end Sys2Proof.Machine
end

section
/-! PROOFS. The ageing side's invariant (R98 to R101, R111). -/

namespace Sys2Proof.Machine

/-- The ageing side's invariant looks at five fields and at INIT. -/
theorem AgeingInvariant.congr {s t : State} (inv : AgeingInvariant s) (claim : t.ageingClaim = s.ageingClaim) (walk : t.walk = s.walk)
    (ticks : t.pendingTicks = s.pendingTicks) (interval : t.ageInterval = s.ageInterval) (ageStep : t.ageStep = s.ageStep)
    (init : t.inInit = s.inInit) : AgeingInvariant t where
  claim := by rw [claim, walk, inv.claim]
  walk w h := inv.walk w (walk ▸ h)
  ticks := ticks ▸ inv.ticks
  timer := by rw [interval, ageStep, init, inv.timer]
  init h := by rw [walk, ticks]; exact inv.init (init ▸ h)

theorem AgeingInvariant.command {s t : State} (inv : AgeingInvariant s) (same : CommandFrame s t) : AgeingInvariant t := by
  obtain ⟨before, after, rest⟩ := same
  refine inv.congr ?_ ?_ ?_ ?_ ?_ (after.trans before.symm) <;> rw [rest]

/-- The age timer runs outside INIT alone (R98). -/
theorem AgeingInvariant.running {s : State} (inv : AgeingInvariant s) {b : BitVec 8} (runs : s.ageInterval = some b) :
    s.inInit = false := by
  by_contra init
  have timer := inv.timer
  rw [runs, if_pos (by simpa using init)] at timer
  cases timer

/-- A walk in flight is outside INIT (R111). -/
theorem AgeingInvariant.walking {s : State} (inv : AgeingInvariant s) {w : Walk} (walk : s.walk = some w) : s.inInit = false := by
  by_contra init
  have none := (inv.init (by simpa using init)).1
  rw [walk] at none
  cases none

/-- The timer's clause outside INIT, after an interval of AGE_STEP has started (R98). -/
theorem AgeingInvariant.restart {s t : State} (inv : AgeingInvariant s) (claim : t.ageingClaim = s.ageingClaim)
    (walk : t.walk = s.walk) (ticks : t.pendingTicks ≤ 3) (interval : t.ageInterval = intervalOf t.ageStep)
    (running : t.inInit = false) : AgeingInvariant t where
  claim := by rw [claim, walk, inv.claim]
  walk w h := inv.walk w (walk ▸ h)
  ticks := ticks
  timer := by rw [interval, running]; rfl
  init h := by rw [running] at h; cases h

theorem AgeingInvariant.walkStart {s : State} (inv : AgeingInvariant s) (due : s.walkDue = true) :
    AgeingInvariant { s with walk := some { k := s.pendingTicks, next := 0 }, pendingTicks := 0, ageingClaim := true } := by
  simp only [State.walkDue, Bool.and_eq_true, decide_eq_true_eq, Bool.not_eq_true'] at due
  obtain ⟨⟨_, pending⟩, running⟩ := due
  exact {
    claim := rfl
    walk := fun w h => by cases h; exact ⟨pending, inv.ticks, Nat.zero_lt_succ _⟩
    ticks := Nat.zero_le _
    timer := inv.timer
    init := fun h => by simp only [State.inInit] at h running; rw [running] at h; cases h }

/-- A step of the walk claims the next slot, or ends the walk after slot 1023 (R101). -/
theorem AgeingInvariant.walkStep {s t : State} (inv : AgeingInvariant s) {w : Walk} (walk : s.walk = some w)
    (claim : t.ageingClaim = decide (w.next + 1 < 1024))
    (next : t.walk = if w.next + 1 < 1024 then some { w with next := w.next + 1 } else none) (ticks : t.pendingTicks = s.pendingTicks)
    (interval : t.ageInterval = s.ageInterval) (ageStep : t.ageStep = s.ageStep) (init : t.inInit = s.inInit) :
    AgeingInvariant t where
  claim := by rw [claim, next]; split <;> simp_all
  walk x h := by
    rw [next] at h
    split at h
    · cases h
      obtain ⟨least, most, _⟩ := inv.walk w walk
      exact ⟨least, most, by assumption⟩
    · cases h
  ticks := ticks ▸ inv.ticks
  timer := by rw [interval, ageStep, init, inv.timer]
  init h := by rw [init, inv.walking walk] at h; cases h

theorem Shape.keeps_ageing {s t : State} {c : Instr} (inv : AgeingInvariant s) (shape : Shape s c t) : AgeingInvariant t := by
  cases shape with
  | same => exact inv
  | fullReset held f line => exact ⟨rfl, nofun, Nat.zero_le _, rfl, fun _ => ⟨rfl, rfl⟩⟩
  | cleared due => exact inv.restart (by simp) (by simp) (by simpa using inv.ticks) (by simp) (by simp [State.inInit])
  | ticked b runs room =>
    exact inv.restart rfl rfl (by simp only; omega) rfl (inv.running runs)
  | overran b runs full =>
    exact inv.restart (by simp) (by simp) (by simpa using inv.ticks) (by simp) (by simpa [State.inInit] using inv.running runs)
  | walkStarted due => exact inv.walkStart due
  | walked w grant walk =>
    rw [walked_frame]
    exact inv.walkStep walk (by simp) (by simp) (by simp) (by simp) (by simp) (by simp [State.inInit])
  | ageStepWritten d out =>
    exact inv.restart (by simp) (by simp) (by simpa using inv.ticks) rfl (by simpa [State.inInit] using out)
  | searched r rest grant queue =>
    rw [searchEvent_frame]
    exact inv.congr rfl rfl rfl rfl rfl rfl
  | taken k o idle level => exact inv.command (take_commandFrame idle ..)
  | slotGranted k f grant busy => exact inv.command (slotCommand_commandFrame busy k)
  | visited sweep f o v x grant busy => exact inv.command (visitSlot_commandFrame busy ..)
  | examined k f i grant busy => exact inv.command (examineNext_commandFrame busy i)
  | strandedDescriptor f i grant busy => exact inv.command ⟨inInit_of_engine_busy busy, rfl, rfl⟩
  | refusalCompleted f code busy => exact inv.command ⟨inInit_of_engine_busy busy, rfl, rfl⟩
  | strandedRestore f i grant busy =>
    exact inv.command (judgeFrom_commandFrame ⟨inInit_of_engine_busy busy, rfl, rfl⟩)
  | completed f k t busy command progress effect => exact inv.command (completionOf_commandFrame busy effect)
  | restored f busy => exact inv.command (domainDone_commandFrame (inInit_of_engine_busy busy) ..)
  | released | linkAssert | linkRelease | notReady | admitted | headOff | headHeld | refusedInInit | refusedBusy | pulseEnded
  | framed => exact inv.congr rfl rfl rfl rfl rfl rfl
  | turnedAway | controlWritten | conditionsWritten | maskWritten | windowWritten =>
    exact inv.congr (by simp) (by simp) (by simp) (by simp) (by simp) (by simp [State.inInit])

/-- Settles O55: the timer's and the walk's own events, an AGE_STEP write, the end of INIT and a full reset are the events that touch the
ageing side; the clauses about INIT rule a running timer and a walk in flight out of it. -/
theorem stepKeepsTheAgeingInvariant : Obligations.StepKeepsTheAgeingInvariant := by
  unfold Obligations.StepKeepsTheAgeingInvariant
  exact step_keeps (fun s rest inv => inv.congr rfl rfl rfl rfl rfl rfl) (fun _ _ _ inv shape => shape.keeps_ageing inv)

end Sys2Proof.Machine
end

section
/-! PROOFS. Every slot holds a record that the part may hold (R7, R10, R49). -/

namespace Sys2Proof.Machine

/-! ### Well-formed records -/

theorem wellFormed_iff (r : Slot) : r.wellFormed = true ↔
    (r.state = .free → r = .free r.gen) ∧
    (r.state = .provisional → r.learned = true ∧ r.pinned = false ∧ r.level = .active) ∧
    netWellFormed r.net = true ∧ portsWellFormed r.ports = true := by
  simp only [Slot.wellFormed, Bool.and_eq_true, Bool.or_eq_true, decide_eq_true_eq, Bool.not_eq_true', ← imp_iff_not_or, ne_eq,
    and_assoc]

theorem free_wellFormed (g : Byte) : (Slot.free g).wellFormed = true := by
  simp [wellFormed_iff, Slot.free, netWellFormed, portsWellFormed]

/-- A binding that keeps the network and port parts of a well-formed record is well-formed by its state's clause (R7). -/
theorem wellFormed_of_sameParts {r x : Slot} (formed : r.wellFormed = true) (binding : x.state ≠ .free)
    (provisional : x.state = .provisional → x.learned = true ∧ x.pinned = false ∧ x.level = .active) (net : x.net = r.net)
    (ports : x.ports = r.ports) : x.wellFormed = true := by
  obtain ⟨_, _, netFormed, portsFormed⟩ := (wellFormed_iff r).mp formed
  exact (wellFormed_iff x).mpr ⟨fun free => absurd free binding, provisional, net ▸ netFormed, ports ▸ portsFormed⟩

/-- What R7 asks of a PROVISIONAL record. -/
theorem provisional_of_wellFormed {r : Slot} (formed : r.wellFormed = true) (provisional : r.state = .provisional) :
    r.learned = true ∧ r.pinned = false ∧ r.level = .active :=
  ((wellFormed_iff r).mp formed).2.1 provisional

theorem countHit_wellFormed {r : Slot} (formed : r.wellFormed = true) (binding : r.state ≠ .free) (stop : Bool)
    (length : BitVec 16) : (r.countHit stop length).wellFormed = true := by
  refine wellFormed_of_sameParts formed binding (fun provisional => ?_) rfl rfl
  obtain ⟨learned, pinned, _⟩ := provisional_of_wellFormed formed provisional
  exact ⟨learned, pinned, rfl⟩

theorem refresh_wellFormed {r : Slot} (formed : r.wellFormed = true) (binding : r.state ≠ .free) :
    r.refresh.wellFormed = true := by
  refine wellFormed_of_sameParts formed binding (fun provisional => ?_) rfl rfl
  obtain ⟨learned, pinned, _⟩ := provisional_of_wellFormed formed provisional
  exact ⟨learned, pinned, rfl⟩

/-- A learned record has the full prefix of its address (Table 5-1), which lies within its family. -/
theorem learnedRecord_wellFormed (former : Slot) (domain : BitVec 4) (k : Key) (length : BitVec 16) (v : Verdict) :
    (learnedRecord former domain k length v).wellFormed = true := by
  rw [wellFormed_iff]
  refine ⟨by simp [learnedRecord], fun _ => ⟨rfl, rfl, rfl⟩, ?_, rfl⟩
  rcases hk : k.net with _ | (_ | _) <;> simp [learnedRecord, netWellFormed, hk, fullPrefix, NetAddress.maxPrefix]

theorem SlotServed.wellFormed {s : State} {r : Request} {i : Nat} {x : Slot} (served : SlotServed s r i x)
    (formed : (s.slotAt i).wellFormed = true) : x.wellFormed = true := by
  cases served with
  | hit stop length binding => exact countHit_wellFormed formed binding stop length
  | touched binding => exact refresh_wellFormed formed binding
  | learned => exact learnedRecord_wellFormed ..

theorem ageBinding_wellFormed {d : Descriptor} {k : Nat} {r x : Slot} (aged : ageBinding d k r = some x)
    (formed : r.wellFormed = true) : x.wellFormed = true := by
  obtain ⟨idle, level, rfl, keepsLevel, keepsFree⟩ := ageBinding_some aged
  by_cases free : r.state = .free
  · rw [keepsFree free]; exact formed
  · refine wellFormed_of_sameParts formed free (fun provisional => ?_) rfl rfl
    obtain ⟨learned, pinned, active⟩ := provisional_of_wellFormed formed provisional
    exact ⟨learned, pinned, (keepsLevel provisional).trans active⟩

/-! ### Records that one-slot commands write -/

/-- A copy that passes R48 holds a PREFIX within its family and a range that is not empty. -/
theorem bindingOf_parts {v : Vector Word 16} (valid : bindingValid v = true) :
    netWellFormed (bindingOf v).net = true ∧ portsWellFormed (bindingOf v).ports = true := by
  simp only [bindingValid, Bool.and_eq_true, Bool.or_eq_true, Bool.not_eq_true', decide_eq_true_eq] at valid
  obtain ⟨⟨⟨⟨_, net⟩, ports⟩, _⟩, _⟩ := valid
  constructor
  · unfold bindingOf
    by_cases present : netPresent v[1] = true
    · have := (net.resolve_left (by simp [present])).2
      simpa [present, netWellFormed] using this
    · simp [present, netWellFormed]
  · unfold bindingOf
    by_cases present : portsPresent v[1] = true
    · have := ports.resolve_left (by simp [present])
      simpa [present, portsWellFormed] using this
    · simp [present, portsWellFormed]

theorem requestedStateOf_cases (c : Byte) : requestedStateOf c = .live ∨ requestedStateOf c = .held := by
  unfold requestedStateOf
  split
  · exact .inr rfl
  · exact .inl rfl

theorem writtenRecord_wellFormed (former : Slot) (domain : Byte) {v : Vector Word 16} (valid : bindingValid v = true) :
    (writtenRecord former domain (bindingOf v)).wellFormed = true := by
  obtain ⟨net, ports⟩ := bindingOf_parts valid
  have state : (writtenRecord former domain (bindingOf v)).state = requestedStateOf (field v[0] 24 8) := rfl
  refine (wellFormed_iff _).mpr ⟨?_, ?_, net, ports⟩ <;> rw [state] <;>
    obtain h | h := requestedStateOf_cases (field v[0] 24 8) <;> rw [h] <;> exact nofun

/-- A record that a command edits stays well-formed when its slot passed the checks of R150. -/
theorem editedRecord_wellFormed {c : Command} {f : InFlight} {d : Descriptor} {r : Slot} (passed : grantCheck c f d r = none)
    (formed : r.wellFormed = true) : (editedRecord c f d r).wellFormed = true := by
  obtain ⟨_, handle, state, record, _⟩ := grantCheck_none passed
  cases c with
  | writeSlot => exact writtenRecord_wellFormed r f.domain (by simpa [badRecord] using record)
  | setVerdict => exact wellFormed_of_sameParts formed (handle rfl).1 (provisional_of_wellFormed (r := r) formed) rfl rfl
  | hold | release | confirm => exact wellFormed_of_sameParts formed nofun nofun rfl rfl
  | pin | unpin =>
    refine wellFormed_of_sameParts formed (handle rfl).1 (fun provisional => ?_) rfl rfl
    exact absurd (show r.state = .provisional from provisional) (by simpa [wrongState] using state)
  | retire => exact free_wellFormed r.gen
  | readSlot =>
    by_cases free : r.state = .free
    · rw [((wellFormed_iff r).mp formed).1 free]
      cases h : d.readClears <;> simp [editedRecord, readRecord, Slot.free, h, wellFormed_iff, netWellFormed, portsWellFormed]
    · exact wellFormed_of_sameParts formed free (provisional_of_wellFormed (r := r) formed) rfl rfl
  | scan | sweep | setDescriptor | exchange | setState | snapshot | restore | counters | clearConditions | reset => exact formed

/-! ### Every step -/

theorem SlotsInvariant.congr {s t : State} (inv : SlotsInvariant s) (slots : t.slots = s.slots) : SlotsInvariant t :=
  fun i hi => by rw [slotAt_congr slots]; exact inv i hi

/-- Slots after one of them is written. -/
theorem SlotsInvariant.write {s t : State} (inv : SlotsInvariant s) {i : Nat} {r : Slot} (formed : i < 1024 → r.wellFormed = true)
    (slots : t.slots = s.slots.setIfInBounds i r) : SlotsInvariant t := by
  intro j hj
  rw [slotAt_of_write slots]
  split
  · next same => exact formed (same.1 ▸ hj)
  · exact inv j hj

theorem SlotsInvariant.searched {s t : State} (inv : SlotsInvariant s) (r : Request)
    (slots : t.slots = (s.writeSlot? (effectOf s r).slot).slots) : SlotsInvariant t := by
  cases written : (effectOf s r).slot with
  | none => exact inv.congr (by rw [slots, written]; rfl)
  | some w =>
    obtain ⟨_, _, served⟩ := effectOf_slot written
    exact inv.write (fun hi => served.wellFormed (inv _ hi)) (by rw [slots, written]; rfl)

theorem SlotsInvariant.stepped {s t : State} (inv : SlotsInvariant s) {k i : Nat} (stepped : Stepped s k i t) : SlotsInvariant t := by
  cases stepped with
  | still => exact inv
  | aged r acts record => exact inv.write (fun hi => ageBinding_wellFormed record (inv i hi)) rfl
  | retired => exact inv.write (fun _ => free_wellFormed _) rfl

theorem passOn_slots (g : State) (sweep : Bool) (f : InFlight) (seg : Segment) (name : SegmentName) (o v x : Nat) :
    (g.passOn sweep f seg name o v x).slots = g.slots := by
  unfold State.passOn
  repeat' split
  all_goals rfl

/-- A visit writes at most one slot, which it makes FREE (R167). -/
theorem visitSlot_slots (s : State) (sweep : Bool) (f : InFlight) (o v x : Nat) :
    (s.visitSlot sweep f o v x).slots = s.slots ∨
      ∃ i, (s.visitSlot sweep f o v x).slots = s.slots.setIfInBounds i (.free (s.slotAt i).gen) := by
  unfold State.visitSlot
  simp only
  split
  · split
    · exact .inr ⟨_, by rw [passOn_slots]; rfl⟩
    · exact .inl rfl
  · exact .inl (by rw [passOn_slots]; rfl)

theorem Shape.keeps_slots {s t : State} {c : Instr} (inv : SlotsInvariant s) (shape : Shape s c t) : SlotsInvariant t := by
  cases shape with
  | same => exact inv
  | fullReset held f line =>
    exact SlotsInvariant.congr (s := s.fullReset) (fun i _ => by rw [slotAt_fullReset]; exact free_wellFormed 0) rfl
  | searched r rest grant queue =>
    rw [searchEvent_frame]
    exact inv.searched r rfl
  | walked w grant walk =>
    refine SlotsInvariant.congr ?_ ((judgeFrom_slots ..).trans (walked_table s w).1)
    exact SlotsInvariant.stepped (inv.congr (by simp)) (stepSlot_stepped ..)
  | slotGranted k f grant busy =>
    obtain ⟨_, _, e⟩ | ⟨passed, _, e⟩ := slotCommand_cases s k f <;> rw [e]
    · exact inv.congr rfl
    · exact inv.write (fun hi => editedRecord_wellFormed passed (inv _ hi)) rfl
  | visited sweep f o v x grant busy =>
    obtain slots | ⟨_, slots⟩ := visitSlot_slots s sweep f o v x
    · exact inv.congr slots
    · exact inv.write (fun _ => free_wellFormed _) slots
  | taken k o idle level =>
    rw [take_frame]
    exact inv.congr rfl
  | completed f k t busy command progress effect =>
    rw [(completionOf_commandFrame busy effect).rest]
    obtain ⟨_, _, _, _, _, _, rfl⟩ := completionOf_some effect
    exact inv.congr rfl
  | released | cleared | linkAssert | linkRelease | notReady | turnedAway | admitted | headOff | headHeld | ticked | overran
  | walkStarted | refusedInInit | refusedBusy | examined | strandedDescriptor | strandedRestore | refusalCompleted | restored
  | pulseEnded | controlWritten | ageStepWritten | conditionsWritten | maskWritten | framed | windowWritten =>
    exact inv.congr (by simp)

/-- Settles O56: slots are written by a search event, a walk step, a one-slot command and a SWEEP's visit, and each of them writes a
well-formed record over a well-formed one. -/
theorem stepKeepsTheSlotsWellFormed : Obligations.StepKeepsTheSlotsWellFormed := by
  unfold Obligations.StepKeepsTheSlotsWellFormed
  exact step_keeps (fun s rest inv => inv.congr rfl) (fun _ _ _ inv shape => shape.keeps_slots inv)

end Sys2Proof.Machine
end

section
/-! PROOFS. The table: segments in bounds and disjoint, and every binding inside a segment of its domain (R9, R25, R26). -/

namespace Sys2Proof.Machine

/-! ### The layout of the table -/

/-- The clauses of `TableInvariant` that look at slots and segments alone. -/
structure TableLayout (s : State) : Prop where
  bounds : ∀ n, n < 16 → (s.domainAt n).desc.active.inBounds = true ∧ (s.domainAt n).desc.standby.inBounds = true
  own    : ∀ n, n < 16 → (s.domainAt n).desc.active.disjoint (s.domainAt n).desc.standby = true
  apart  : ∀ n m, n < 16 → m < 16 → n ≠ m → (s.domainAt n).desc.apart (s.domainAt m).desc = true
  owned  : ∀ i, i < 1024 → (s.slotAt i).state ≠ .free → (s.domainAt (s.slotAt i).domain.toNat).desc.owns i = true

theorem TableInvariant.layout {s : State} (inv : TableInvariant s) : TableLayout s := ⟨inv.bounds, inv.own, inv.apart, inv.owned⟩

/-- Every binding after an event was a binding of the same domain before it, or lies in a segment of its domain. -/
theorem TableLayout.keep {s t : State} (lay : TableLayout s) (desc : ∀ n, (t.domainAt n).desc = (s.domainAt n).desc)
    (slots : ∀ i, i < 1024 → (t.slotAt i).state ≠ .free →
      ((s.slotAt i).state ≠ .free ∧ (t.slotAt i).domain = (s.slotAt i).domain) ∨
        (s.domainAt (t.slotAt i).domain.toNat).desc.owns i = true) : TableLayout t where
  bounds n hn := by rw [desc]; exact lay.bounds n hn
  own n hn := by rw [desc]; exact lay.own n hn
  apart n m hn hm ne := by rw [desc, desc]; exact lay.apart n m hn hm ne
  owned i hi binding := by
    rw [desc]
    obtain ⟨former, domain⟩ | owns := slots i hi binding
    · rw [domain]; exact lay.owned i hi former
    · exact owns

theorem TableLayout.congr {s t : State} (lay : TableLayout s) (slots : t.slots = s.slots)
    (desc : ∀ n, (t.domainAt n).desc = (s.domainAt n).desc) : TableLayout t :=
  lay.keep desc fun i _ binding => .inl ⟨by rwa [slotAt_congr slots] at binding, by rw [slotAt_congr slots]⟩

theorem TableLayout.kept {s t : State} (lay : TableLayout s) (slots : t.slots = s.slots) (domains : t.domains = s.domains) :
    TableLayout t := lay.congr slots fun n => by rw [domainAt_congr domains]

/-- The layout after one slot is written: with no binding, or with one that the slot held or that its domain owns. -/
theorem TableLayout.write {s t : State} (lay : TableLayout s) {i : Nat} {r : Slot} (slots : t.slots = s.slots.setIfInBounds i r)
    (domains : t.domains = s.domains)
    (binding : r.state ≠ .free → ((s.slotAt i).state ≠ .free ∧ r.domain = (s.slotAt i).domain) ∨
      (s.domainAt r.domain.toNat).desc.owns i = true) : TableLayout t := by
  refine lay.keep (fun n => by rw [domainAt_congr domains]) fun j _ present => ?_
  rw [slotAt_of_write slots] at present ⊢
  split at present
  · next same => rw [if_pos same, ← same.1]; exact binding present
  · next other => rw [if_neg other]; exact .inl ⟨present, rfl⟩

/-- The layout after one domain has taken other segments: they lie in bounds, are disjoint from each other and from every other domain's,
and hold every binding of the domain. -/
theorem TableLayout.load {s t : State} (lay : TableLayout s) {n : Nat} {new : Descriptor} (slots : t.slots = s.slots)
    (desc : ∀ m, (t.domainAt m).desc = if n = m ∧ m < 16 then new else (s.domainAt m).desc)
    (bounds : new.active.inBounds = true ∧ new.standby.inBounds = true) (own : new.active.disjoint new.standby = true)
    (apart : ∀ m, m < 16 → m ≠ n → new.apart (s.domainAt m).desc = true)
    (owned : ∀ i, i < 1024 → (s.slotAt i).state ≠ .free → (s.slotAt i).domain.toNat = n → new.owns i = true) : TableLayout t where
  bounds m hm := by
    rw [desc]; split
    · exact bounds
    · exact lay.bounds m hm
  own m hm := by
    rw [desc]; split
    · exact own
    · exact lay.own m hm
  apart a b ha hb ne := by
    rw [desc, desc]
    split
    · next first =>
      rw [if_neg (fun second => ne (first.1.symm.trans second.1))]
      exact apart b hb (fun same => ne (first.1.symm.trans same.symm))
    · split
      · next second => rw [apart_comm]; exact apart a ha (fun same => ne (same.trans second.1))
      · exact lay.apart a b ha hb ne
  owned i hi binding := by
    rw [slotAt_congr slots] at binding ⊢
    rw [desc]; split
    · next same => exact owned i hi binding same.1.symm
    · exact lay.owned i hi binding

/-! ### Examinations under events that keep the segments -/

/-- What a search event or a walk step leaves of a domain's record: everything but STICKY, the counters and CURSOR. -/
structure SameService (d e : DomainRecord) : Prop where
  desc : e.desc = d.desc
  state : e.state = d.state
  restoring : e.restoring = d.restoring

theorem SameService.refl (d : DomainRecord) : SameService d d := ⟨rfl, rfl, rfl⟩

theorem RecordServed.same {d e : DomainRecord} (h : RecordServed d e) : SameService d e := ⟨h.desc, h.state, h.restoring⟩

/-- An examination goes on under an event that makes no leaving slot a binding, unless the command is to be refused anyway (R39). -/
theorem ExaminedUpTo.keep {s t : State} {c : Command} {f : InFlight} {upTo : Nat} (e : ExaminedUpTo s c f upTo)
    (domains : ∀ n, SameService (s.domainAt n) (t.domainAt n))
    (slots : ∀ i, i < 1024 → leaves (s.domainAt f.domain.toNat).desc (descriptorOf f.staged.domainWords) i = true →
      (s.slotAt i).state = .free → (t.slotAt i).state = .free ∨
        (c = .setDescriptor ∧ (s.domainAt f.domain.toNat).refusesActive (descriptorOf f.staged.domainWords) = true)) :
    ExaminedUpTo t c f upTo where
  domain := e.domain
  valid := e.valid
  apart := by
    rw [overlaps_false]
    obtain ⟨own, others⟩ := overlaps_false.mp e.apart
    exact ⟨own, fun m hm ne => by rw [(domains m).desc]; exact others m hm ne⟩
  free j hj bound leaving := by
    have same := domains f.domain.toNat
    rw [same.desc] at leaving
    rw [DomainRecord.refusesActive, same.state, same.desc, ← DomainRecord.refusesActive]
    obtain free | refused := e.free j hj bound leaving
    · exact slots j bound leaving free
    · exact .inr refused
  hidden h := by rw [(domains _).restoring]; exact e.hidden h

/-- An examination one slot further: the examined slot is FREE, and no slot up to the next one leaves the segments (R39, R174). -/
theorem ExaminedUpTo.advance {s t : State} {c : Command} {f : InFlight} {p : Progress} {i upTo : Nat} (e : ExaminedUpTo s c f i)
    (slots : ∀ j, t.slotAt j = s.slotAt j) (domains : ∀ n, t.domainAt n = s.domainAt n) (free : (s.slotAt i).state = .free)
    (between : ∀ j, i + 1 ≤ j → j < upTo → j < 1024 →
      leaves (s.domainAt f.domain.toNat).desc (descriptorOf f.staged.domainWords) j = false) :
    ExaminedUpTo t c { f with progress := p } upTo where
  domain := e.domain
  valid := e.valid
  apart := by
    rw [overlaps_false]
    obtain ⟨own, others⟩ := overlaps_false.mp e.apart
    exact ⟨own, fun m hm ne => by rw [domains]; exact others m hm ne⟩
  free j hj bound leaving := by
    simp only [domains, slots] at leaving ⊢
    obtain below | same | above := lt_trichotomy j i
    · exact e.free j below bound leaving
    · exact .inl (same ▸ free)
    · rw [between j above hj bound] at leaving; cases leaving
  hidden h := by rw [domains]; exact e.hidden h

/-- An event that leaves the command in flight, the segments, and the bindings outside a learn keeps the invariant. -/
theorem TableInvariant.keep {s t : State} (inv : TableInvariant s) (engine : t.engine = s.engine)
    (domains : ∀ n, SameService (s.domainAt n) (t.domainAt n))
    (slots : ∀ i, i < 1024 → (t.slotAt i).state ≠ .free →
      (s.slotAt i).state ≠ .free ∧ (t.slotAt i).domain = (s.slotAt i).domain) : TableInvariant t := by
  have lay := inv.layout.keep (fun n => (domains n).desc) (fun i hi binding => .inl (slots i hi binding))
  have examined {c f upTo} (e : ExaminedUpTo s c f upTo) : ExaminedUpTo t c f upTo :=
    e.keep domains fun i hi _ free => .inl (by_contra fun binding => (slots i hi binding).1 free)
  exact {
    lay with
    grant := fun f busy => inv.grant f (engine ▸ busy)
    examine := fun f c i busy command which progress => examined (inv.examine f c i (engine ▸ busy) command which progress)
    complete := fun f c busy command which progress => examined (inv.complete f c (engine ▸ busy) command which progress) }

theorem TableInvariant.congr {s t : State} (inv : TableInvariant s) (engine : t.engine = s.engine) (domains : t.domains = s.domains)
    (slots : t.slots = s.slots) : TableInvariant t :=
  inv.keep engine (fun n => by rw [domainAt_congr domains]; exact .refl _)
    fun i _ binding => ⟨by rwa [slotAt_congr slots] at binding, by rw [slotAt_congr slots]⟩

/-- A part whose engine is not BUSY has nothing to show but its layout. -/
theorem TableLayout.invariant_of_not_busy {s : State} (lay : TableLayout s) (rest : ∀ f, s.engine ≠ .busy f) : TableInvariant s :=
  { lay with
    grant := fun f busy => absurd busy (rest f)
    examine := fun f _ _ busy => absurd busy (rest f)
    complete := fun f _ busy => absurd busy (rest f) }

theorem TableLayout.invariant_of_idle {s : State} (lay : TableLayout s) (idle : s.engine = .idle) : TableInvariant s :=
  lay.invariant_of_not_busy fun f busy => by rw [idle] at busy; cases busy

/-- A part whose command in flight waits for a visit has nothing to show but its layout. -/
theorem TableLayout.invariant_of_visit {s : State} (lay : TableLayout s) {f : InFlight} {o v x : Nat} (busy : s.engine = .busy f)
    (progress : f.progress = .visit o v x) : TableInvariant s := by
  have at_visit {g : InFlight} (same : s.engine = .busy g) : g.progress = .visit o v x := by
    rw [busy] at same; cases same; exact progress
  exact {
    lay with
    grant := fun g same h => by rw [at_visit same] at h; cases h
    examine := fun g _ _ same _ _ h => by rw [at_visit same] at h; cases h
    complete := fun g _ same _ _ h => by rw [at_visit same] at h; cases h }

end Sys2Proof.Machine
end

section
/-! PROOFS. The table under search events, walk steps, takes, grants, visits and completions. -/

namespace Sys2Proof.Machine

/-! ### Search events -/

theorem outOfService_false_iff (d : DomainRecord) : d.outOfService = false ↔ d.state ≠ .off ∧ d.restoring = false := by
  simp [DomainRecord.outOfService]

/-- The slot a search event writes keeps its binding's domain, or was FREE and takes the request's domain (R86). -/
theorem SlotServed.binding {s : State} {r : Request} {i : Nat} {x : Slot} (served : SlotServed s r i x) :
    ((s.slotAt i).state ≠ .free ∧ x.domain = (s.slotAt i).domain) ∨ x.domain = r.domain := by
  cases served with
  | hit stop length binding => exact .inl ⟨binding, rfl⟩
  | touched binding => exact .inl ⟨binding, rfl⟩
  | learned => exact .inr rfl

/-- A domain's active segment shares no slot with another domain's segments. -/
theorem TableLayout.domain_of_owns {s : State} (lay : TableLayout s) {n m i : Nat} (hn : n < 16) (hm : m < 16)
    (active : (s.domainAt m).desc.active.has i = true) (owns : (s.domainAt n).desc.owns i = true) : n = m := by
  by_contra ne
  have apart := lay.apart m n hm hn (Ne.symm ne)
  simp only [Descriptor.apart, Bool.and_eq_true] at apart
  obtain ⟨⟨⟨withActive, withStandby⟩, _⟩, _⟩ := apart
  rw [owns_iff, disjoint_has withActive active, disjoint_has withStandby active] at owns
  simp at owns

/-- A slot of the active segment of a domain in service that an examination finds leaving: the command is a SET_DESCRIPTOR that will be
refused with DOMAIN_ON, since the domain is ON or FROZEN and its active segment would change (R39, R40). -/
theorem ExaminedUpTo.refused_of_active {s : State} {c : Command} {f : InFlight} {upTo i m : Nat} (e : ExaminedUpTo s c f upTo)
    (which : c = .setDescriptor ∨ c = .restore) (lay : TableLayout s) (hm : m < 16)
    (service : (s.domainAt m).outOfService = false) (active : (s.domainAt m).desc.active.has i = true)
    (leaving : leaves (s.domainAt f.domain.toNat).desc (descriptorOf f.staged.domainWords) i = true) :
    c = .setDescriptor ∧ (s.domainAt f.domain.toNat).refusesActive (descriptorOf f.staged.domainWords) = true := by
  simp only [leaves, Bool.and_eq_true, Bool.not_eq_true'] at leaving
  obtain ⟨owns, leaves⟩ := leaving
  have same := lay.domain_of_owns (Nat.lt_succ_of_le e.domain) hm active owns
  obtain ⟨state, restoring⟩ := (outOfService_false_iff _).mp service
  rw [← same] at state restoring active
  constructor
  · refine which.resolve_right fun isRestore => ?_
    rw [e.hidden isRestore] at restoring
    cases restoring
  · simp only [DomainRecord.refusesActive, Bool.and_eq_true, decide_eq_true_eq]
    refine ⟨state, fun kept => ?_⟩
    rw [Descriptor.owns, kept, active] at leaves
    cases leaves

theorem searchEvent_domainAt (s : State) (r : Request) (rest : List Request) (e : SearchEffect) (n : Nat) :
    (s.searchEvent r rest e).domainAt n = if r.domain.toNat = n ∧ n < 16 then e.record else s.domainAt n := by
  rw [searchEvent_frame]
  exact domainAt_of_write (s := s) rfl n

theorem searchEvent_slots (s : State) (r : Request) (rest : List Request) (e : SearchEffect) :
    (s.searchEvent r rest e).slots = (s.writeSlot? e.slot).slots := by
  rw [searchEvent_frame]

theorem searchEvent_engine (s : State) (r : Request) (rest : List Request) (e : SearchEffect) :
    (s.searchEvent r rest e).engine = s.engine := by
  rw [searchEvent_frame]

theorem searchEvent_same (s : State) (r : Request) (rest : List Request) (n : Nat) :
    SameService (s.domainAt n) ((s.searchEvent r rest (effectOf s r)).domainAt n) := by
  rw [searchEvent_domainAt]
  split
  · next same => rw [← same.1]; exact (effectOf_record s r).same
  · exact .refl _

theorem TableInvariant.searched {s : State} (inv : TableInvariant s) (r : Request) (rest : List Request) :
    TableInvariant (s.searchEvent r rest (effectOf s r)) := by
  have domains := searchEvent_same s r rest
  have engine := searchEvent_engine s r rest (effectOf s r)
  have slots := searchEvent_slots s r rest (effectOf s r)
  generalize s.searchEvent r rest (effectOf s r) = t at domains engine slots
  cases written : (effectOf s r).slot with
  | none =>
    rw [written] at slots
    exact inv.keep engine domains fun i _ binding =>
      ⟨by rwa [slotAt_congr (s := s) slots] at binding, by rw [slotAt_congr (s := s) slots]⟩
  | some w =>
    obtain ⟨i, x⟩ := w
    obtain ⟨active, service, served⟩ := effectOf_slot written
    rw [written] at slots
    have slot := slotAt_of_write (s := s) slots
    have domainBound : r.domain.toNat < 16 := r.domain.isLt
    have lay : TableLayout t := by
      refine inv.layout.keep (fun n => (domains n).desc) fun j _ binding => ?_
      rw [slot] at binding ⊢
      split at binding
      · next same =>
        rw [if_pos same, ← same.1]
        refine served.binding.imp_right fun domain => ?_
        rw [domain, owns_iff]
        exact .inl active
      · next other => rw [if_neg other]; exact .inl ⟨binding, rfl⟩
    have examined {c f upTo} (which : c = .setDescriptor ∨ c = .restore) (e : ExaminedUpTo s c f upTo) :
        ExaminedUpTo t c f upTo := by
      refine e.keep domains fun j _ leaving free => ?_
      rw [slot]
      split
      · next same =>
        exact .inr (e.refused_of_active which inv.layout domainBound service (same.1 ▸ active) leaving)
      · exact .inl free
    exact {
      lay with
      grant := fun f busy => inv.grant f (engine ▸ busy)
      examine := fun f c i busy command which progress =>
        examined which (inv.examine f c i (engine ▸ busy) command which progress)
      complete := fun f c busy command which progress =>
        examined which (inv.complete f c (engine ▸ busy) command which progress) }

/-! ### Walk steps -/

theorem TableInvariant.stepped {s t : State} (inv : TableInvariant s) {k i : Nat} (stepped : Stepped s k i t) : TableInvariant t := by
  cases stepped with
  | still => exact inv
  | aged r acts record =>
    obtain ⟨idle, level, rfl, _⟩ := ageBinding_some record
    refine inv.keep rfl (fun n => by rw [domainAt_setSlot]; exact .refl _) fun j _ binding => ?_
    rw [slotAt_setSlot] at binding ⊢
    split at binding
    · next same => rw [if_pos same, ← same.1]; exact ⟨(stepActs_iff.mp acts).1, rfl⟩
    · next other => rw [if_neg other]; exact ⟨binding, rfl⟩
  | retired acts record =>
    refine inv.keep rfl (fun n => ?_) fun j _ binding => ?_
    · rw [domainAt_setDomain]
      split
      · next same => rw [← same.1]; exact ⟨by simp, by simp, by simp⟩
      · rw [domainAt_setSlot]; exact .refl _
    · rw [slotAt_setDomain, slotAt_setSlot] at binding ⊢
      split at binding
      · exact absurd rfl binding
      · next other => rw [if_neg other]; exact ⟨binding, rfl⟩

/-! ### Takes -/

/-- The commands whose take leaves them waiting for the grant of one claim are the one-slot commands (R152). -/
theorem usesSlot_of_startOf_grant {s : State} {o : Operands} {staged : Staged} {k : Command}
    (start : s.startOf o staged k = .grant) : usesSlot k = true := by
  cases k
  case scan | sweep =>
    obtain ⟨_, e⟩ | e | ⟨_, e, _⟩ := passStart_cases (s.domainAt o.domain.toNat) o.flags <;>
      simp [State.startOf, e] at start
  case setDescriptor =>
    obtain ⟨_, e⟩ | ⟨_, _, e⟩ := descriptorStart_cases s o.domain.toNat staged.domainWords
    · simp [State.startOf, e] at start
    · obtain ⟨_, e', _⟩ | ⟨e', _⟩ := examineFrom_cases (s.domainAt o.domain.toNat).desc (descriptorOf staged.domainWords) 0 <;>
        simp [State.startOf, e, e'] at start
  case restore =>
    obtain ⟨_, e⟩ | ⟨_, _, e⟩ := restoreStart_cases s o.domain.toNat staged.domainWords
    · simp [State.startOf, e] at start
    · obtain ⟨_, e', _⟩ | ⟨e', _⟩ := examineFrom_cases (s.domainAt o.domain.toNat).desc (descriptorOf staged.domainWords) 0 <;>
        simp [State.startOf, e, e'] at start
  case setState => simp only [State.startOf] at start; split at start <;> cases start
  case exchange | snapshot | counters | clearConditions | reset => cases start
  all_goals rfl

/-- A SET_DESCRIPTOR or RESTORE that is not refused at its take has passed R37 and R38, and its examination starts at slot 0. -/
theorem startOf_examination {s : State} {o : Operands} {staged : Staged} {k : Command} (which : k = .setDescriptor ∨ k = .restore)
    (passed : (s.startOf o staged k).isRefused = false) :
    descriptorValid staged.domainWords = true ∧ s.overlaps o.domain.toNat (descriptorOf staged.domainWords) = false ∧
      s.startOf o staged k = examineFrom (s.domainAt o.domain.toNat).desc (descriptorOf staged.domainWords) 0 := by
  obtain rfl | rfl := which
  · obtain ⟨_, e⟩ | e := descriptorStart_cases s o.domain.toNat staged.domainWords
    · simp [State.startOf, e, Progress.isRefused] at passed
    · exact e
  · obtain ⟨_, e⟩ | ⟨valid, e⟩ := restoreStart_cases s o.domain.toNat staged.domainWords
    · simp [State.startOf, e, Progress.isRefused] at passed
    · simp only [domainValid, Bool.and_eq_true] at valid
      exact ⟨valid.1, e⟩

theorem take_slots (s : State) (c : Option Command) (o : Operands) : (s.take c o).slots = s.slots := by rw [take_frame]

theorem take_desc (s : State) (c : Option Command) (o : Operands) (n : Nat) :
    ((s.take c o).domainAt n).desc = (s.domainAt n).desc := by
  rw [take_domainAt]; split <;> rfl

/-- What a take establishes of an examination: nothing below its first slot leaves the segments. -/
theorem take_examinedUpTo {s : State} {o : Operands} {k : Command} {upTo : Nat} (which : k = .setDescriptor ∨ k = .restore)
    (progress : (s.inFlight (some k) o).progress.isRefused = false)
    (below : (∃ i, (s.inFlight (some k) o).progress = .examine i ∧ upTo = i) ∨ (s.inFlight (some k) o).progress = .complete ∧ upTo = 1024) :
    ExaminedUpTo (s.take (some k) o) k (s.inFlight (some k) o) upTo := by
  obtain ⟨passed, k', same, start⟩ := inFlight_progress progress
  cases same
  rw [start] at progress
  obtain ⟨valid, apart, examination⟩ := startOf_examination which progress
  have domain : o.domain.toNat ≤ 15 := by
    obtain ⟨isReset, _⟩ | ⟨_, domain, _⟩ := takeCheck_none passed
    · rw [isReset] at which; simp at which
    · exact domain
  rw [start, examination] at below
  exact {
    domain := domain
    valid := valid
    apart := by
      rw [overlaps_false]
      obtain ⟨own, others⟩ := overlaps_false.mp apart
      exact ⟨own, fun m hm ne => by rw [take_desc]; exact others m hm ne⟩
    free := fun j hj bound leaving => by
      rw [take_desc] at leaving
      have stays : leaves (s.domainAt o.domain.toNat).desc (descriptorOf (s.inFlight (some k) o).staged.domainWords) j = false := by
        obtain ⟨i, e, _, _, _, none⟩ | ⟨e, none⟩ :=
          examineFrom_cases (s.domainAt o.domain.toNat).desc (descriptorOf (s.inFlight (some k) o).staged.domainWords) 0
        · obtain ⟨i', e', rfl⟩ | ⟨e', _⟩ := below <;> rw [e] at e' <;> cases e'
          exact none j (Nat.zero_le j) hj
        · exact none j (Nat.zero_le j) bound
      rw [inFlight_domain, stays] at leaving
      cases leaving
    hidden := fun isRestore => by
      have notRefused : (s.inFlight (some k) o).progress.isRefused = false := by rw [start]; exact progress
      rw [inFlight_domain, take_domainAt, if_pos ⟨⟨by rw [isRestore], notRefused⟩, rfl, Nat.lt_succ_of_le domain⟩] }

theorem TableInvariant.taken {s : State} (inv : TableInvariant s) (k : Option Command) (o : Operands) :
    TableInvariant (s.take k o) := by
  have inFlightIs {f : InFlight} (busy : (s.take k o).engine = .busy f) : f = s.inFlight k o := by
    rw [take_engine] at busy; cases busy; rfl
  exact {
    inv.layout.congr (take_slots s k o) (take_desc s k o) with
    grant := fun f busy progress => by
      rw [inFlightIs busy] at progress ⊢
      obtain ⟨passed, k', rfl, start⟩ := inFlight_progress (by rw [progress]; rfl)
      have uses := usesSlot_of_startOf_grant (start.symm.trans progress)
      obtain ⟨rfl, _⟩ | ⟨_, domain, slot, _⟩ := takeCheck_none passed
      · cases uses
      · exact ⟨domain, slot uses⟩
    examine := fun f c i busy command which progress => by
      obtain rfl := inFlightIs busy
      rw [inFlight_command] at command
      subst command
      exact take_examinedUpTo which (by rw [progress]; rfl) (.inl ⟨i, progress, rfl⟩)
    complete := fun f c busy command which progress => by
      obtain rfl := inFlightIs busy
      rw [inFlight_command] at command
      subst command
      exact take_examinedUpTo which (by rw [progress]; rfl) (.inr ⟨progress, rfl⟩) }

end Sys2Proof.Machine
end

section
/-! PROOFS. The table under one-slot commands, visits, examinations and completions; every step keeps it. -/

namespace Sys2Proof.Machine

/-! ### One-slot commands -/

/-- A one-slot command that leaves a binding wrote it for its own domain, or found it a binding of that record's domain (R154). -/
theorem editedRecord_binding {c : Command} {f : InFlight} {d : Descriptor} {r : Slot} (passed : grantCheck c f d r = none)
    (binding : (editedRecord c f d r).state ≠ .free) :
    (editedRecord c f d r).domain = f.domain.setWidth 4 ∨ (r.state ≠ .free ∧ (editedRecord c f d r).domain = r.domain) := by
  obtain ⟨_, handle, _⟩ := grantCheck_none passed
  cases c with
  | writeSlot => exact .inl rfl
  | setVerdict | hold | release | confirm | pin | unpin => exact .inr ⟨(handle rfl).1, rfl⟩
  | retire => exact absurd rfl binding
  | readSlot | scan | sweep | setDescriptor | exchange | setState | snapshot | restore | counters | clearConditions | reset =>
    exact .inr ⟨binding, rfl⟩

theorem TableInvariant.slotGranted {s : State} (inv : TableInvariant s) {f : InFlight} (busy : s.engine = .busy f)
    (progress : f.progress = .grant) (k : Command) : TableInvariant (s.slotCommand k f) := by
  obtain ⟨_, _, e⟩ | ⟨passed, _, e⟩ := slotCommand_cases s k f <;> rw [e] <;> refine TableLayout.invariant_of_idle ?_ rfl
  · exact inv.layout.kept rfl rfl
  · refine inv.layout.write rfl rfl fun binding => (editedRecord_binding passed binding).symm.imp_right fun domain => ?_
    have bound := (inv.grant f busy progress).1
    rw [domain, BitVec.toNat_setWidth, Nat.mod_eq_of_lt (by omega)]
    exact (grantCheck_none passed).1

/-! ### Visits -/

/-- How a visit leaves the state that its grant and its retirement have made, whatever the visits before it: the issue ends with CURSOR and
RESULT, or the next visit is claimed. -/
inductive PassedOn (g : State) (f : InFlight) : State → Prop
  | ended (code : ResultCode) (h : Handle) (cursor : Option Cursor) (count : Nat) :
    PassedOn g f (g.passDone f.domain.toNat code h cursor count)
  | next (o v x : Nat) : PassedOn g f { g with engine := .busy { f with progress := .visit o v x }, commandClaim := true }

theorem passOn_passedOn (g : State) (sweep : Bool) (f : InFlight) (seg : Segment) (name : SegmentName) (o v x : Nat) :
    PassedOn g f (g.passOn sweep f seg name o v x) := by
  unfold State.passOn
  split
  · exact .ended ..
  · split
    · exact .ended ..
    · exact .next ..

theorem visitSlot_passedOn (s : State) (sweep : Bool) (f : InFlight) (o v x : Nat) :
    ∃ g, (g = s.grant .command ∨ ∃ i, g = (s.grant .command).setSlot i (s.slotAt i).retire) ∧
      PassedOn g f (s.visitSlot sweep f o v x) := by
  unfold State.visitSlot
  simp only
  split
  · split
    · exact ⟨_, .inr ⟨_, rfl⟩, passOn_passedOn ..⟩
    · exact ⟨_, .inl rfl, .ended ..⟩
  · exact ⟨_, .inl rfl, passOn_passedOn ..⟩

theorem PassedOn.layout {g t : State} {f : InFlight} (passed : PassedOn g f t) (lay : TableLayout g) : TableInvariant t := by
  cases passed with
  | ended =>
    refine TableLayout.invariant_of_idle (lay.congr rfl fun n => ?_) rfl
    rw [domainAt_passDone]
    split
    · next same => rw [← same.1]
    · rfl
  | next => exact TableLayout.invariant_of_visit (lay.kept rfl rfl) rfl rfl

theorem TableInvariant.visited {s : State} (inv : TableInvariant s) (sweep : Bool) (f : InFlight) (o v x : Nat) :
    TableInvariant (s.visitSlot sweep f o v x) := by
  obtain ⟨g, rfl | ⟨i, rfl⟩, passed⟩ := visitSlot_passedOn s sweep f o v x
  · exact passed.layout (inv.layout.kept rfl rfl)
  · exact passed.layout (inv.layout.write rfl rfl fun binding => absurd rfl binding)

/-! ### Examinations -/

theorem TableInvariant.examined {s : State} (inv : TableInvariant s) {k : Command} {f : InFlight} {i : Nat}
    (busy : s.engine = .busy f) (command : f.command = some k) (which : k = .setDescriptor ∨ k = .restore)
    (progress : f.progress = .examine i) (free : (s.slotAt i).state = .free) :
    TableInvariant ((s.grant .command).examineNext f i) := by
  have soFar := inv.examine f k i busy command which progress
  have inFlightIs {g : InFlight} (same : ((s.grant .command).examineNext f i).engine = .busy g) :
      g = { f with
        progress := examineFrom (s.domainAt f.domain.toNat).desc (descriptorOf f.staged.domainWords) (i + 1) } := by
    rw [examineNext_engine, domainAt_grant] at same; cases same; rfl
  have next {c : Command} {upTo : Nat} (sameCommand : f.command = some c)
      (between : ∀ j, i + 1 ≤ j → j < upTo → j < 1024 →
        leaves (s.domainAt f.domain.toNat).desc (descriptorOf f.staged.domainWords) j = false) :
      ExaminedUpTo ((s.grant .command).examineNext f i) c
        { f with progress := examineFrom (s.domainAt f.domain.toNat).desc (descriptorOf f.staged.domainWords) (i + 1) } upTo := by
    rw [command] at sameCommand; cases sameCommand
    exact soFar.advance (by simp) (by simp) free between
  have cases := examineFrom_cases (s.domainAt f.domain.toNat).desc (descriptorOf f.staged.domainWords) (i + 1)
  exact {
    inv.layout.congr (t := (s.grant .command).examineNext f i) (by simp) (by simp) with
    grant := fun g same h => by
      rw [inFlightIs same] at h
      obtain ⟨_, e, _⟩ | ⟨e, _⟩ := cases <;> rw [e] at h <;> cases h
    examine := fun g c j same sameCommand _ h => by
      rw [inFlightIs same] at h sameCommand ⊢
      obtain ⟨j', e, _, _, _, between⟩ | ⟨e, _⟩ := cases <;> rw [e] at h <;> cases h
      exact next sameCommand fun m above below _ => between m above below
    complete := fun g c same sameCommand _ h => by
      rw [inFlightIs same] at h sameCommand ⊢
      obtain ⟨_, e, _⟩ | ⟨e, between⟩ := cases <;> rw [e] at h <;> cases h
      exact next sameCommand fun m above _ bound => between m above bound }

/-! ### Completions -/

/-- A completed examination whose copy is loaded: the copy lies apart from every other domain, and the domain's bindings lie in it (R39). -/
theorem TableLayout.loadExamined {s t : State} (lay : TableLayout s) {c : Command} {f : InFlight} (e : ExaminedUpTo s c f 1024)
    (passes : c = .setDescriptor → (s.domainAt f.domain.toNat).refusesActive (descriptorOf f.staged.domainWords) = false)
    (slots : t.slots = s.slots)
    (desc : ∀ m, (t.domainAt m).desc =
      if f.domain.toNat = m ∧ m < 16 then descriptorOf f.staged.domainWords else (s.domainAt m).desc) : TableLayout t := by
  obtain ⟨own, others⟩ := overlaps_false.mp e.apart
  have valid := e.valid
  simp only [descriptorValid, Bool.and_eq_true] at valid
  refine lay.load slots desc valid.1.1 own others fun i hi binding domain => ?_
  by_contra stranded
  have owns := lay.owned i hi binding
  rw [domain] at owns
  have leaving : leaves (s.domainAt f.domain.toNat).desc (descriptorOf f.staged.domainWords) i = true := by
    rw [leaves, owns, Bool.not_eq_true _ |>.mp stranded]
    rfl
  obtain free | ⟨isSet, refused⟩ := e.free i hi hi leaving
  · exact binding free
  · rw [passes isSet] at refused; cases refused

/-- EXCHANGE gives the two segments each other's names (R42). -/
theorem TableLayout.exchange {s t : State} (lay : TableLayout s) {n : Nat} (slots : t.slots = s.slots)
    (domains : ∀ m, t.domainAt m = if n = m ∧ m < 16 then (s.domainAt n).exchange else s.domainAt m) : TableLayout t := by
  by_cases hn : n < 16
  · have swapped (m : Nat) : (s.domainAt n).exchange.desc.apart (s.domainAt m).desc = (s.domainAt n).desc.apart (s.domainAt m).desc := by
      simp only [DomainRecord.exchange, Descriptor.apart]
      generalize (s.domainAt n).desc.active.disjoint _ = a
      generalize (s.domainAt n).desc.active.disjoint _ = b
      cases a <;> cases b <;> simp
    refine lay.load slots (n := n) (new := (s.domainAt n).exchange.desc) (fun m => by rw [domains]; split <;> rfl) (lay.bounds n hn).symm ?_
      (fun m hm ne => by rw [swapped]; exact lay.apart n m hn hm (Ne.symm ne)) fun i hi binding domain => ?_
    · exact (segment_disjoint_comm _ _).trans (lay.own n hn)
    · have owns := lay.owned i hi binding
      rw [domain, owns_iff] at owns
      exact (owns_iff _ i).mpr owns.symm
  · refine lay.congr slots fun m => ?_
    rw [domains, if_neg (fun same : n = m ∧ m < 16 => hn (same.1 ▸ same.2))]

/-- A completion that leaves the domain's segments as they were. -/
theorem TableLayout.complete {s t : State} (lay : TableLayout s) {n : Nat} {d : DomainRecord} (slots : t.slots = s.slots)
    (domains : ∀ m, t.domainAt m = if n = m ∧ m < 16 then d else s.domainAt m) (active : d.desc.active = (s.domainAt n).desc.active)
    (standby : d.desc.standby = (s.domainAt n).desc.standby) : TableLayout t := by
  have segments (m : Nat) : (t.domainAt m).desc.active = (s.domainAt m).desc.active ∧
      (t.domainAt m).desc.standby = (s.domainAt m).desc.standby := by
    rw [domains]
    split
    · next same => rw [← same.1]; exact ⟨active, standby⟩
    · exact ⟨rfl, rfl⟩
  exact {
    bounds := fun m hm => by rw [(segments m).1, (segments m).2]; exact lay.bounds m hm
    own := fun m hm => by rw [(segments m).1, (segments m).2]; exact lay.own m hm
    apart := fun a b ha hb ne => by
      rw [Descriptor.apart, (segments a).1, (segments a).2, (segments b).1, (segments b).2]
      exact lay.apart a b ha hb ne
    owned := fun i hi binding => by
      rw [slotAt_congr slots] at binding ⊢
      rw [Descriptor.owns, (segments _).1, (segments _).2]
      exact lay.owned i hi binding }

theorem TableInvariant.completed {s t : State} (inv : TableInvariant s) {f : InFlight} {k : Command} (busy : s.engine = .busy f)
    (command : f.command = some k) (progress : f.progress = .complete) (effect : s.completionOf f k = some t) :
    TableInvariant t := by
  obtain ⟨d, r, snapshot, pulse, completed, _, rfl⟩ := completionOf_some effect
  refine TableLayout.invariant_of_idle ?_ rfl
  have lay := inv.layout
  have domains (m : Nat) := domainAt_setDomain s f.domain.toNat m d
  cases completed with
  | exchange => exact lay.exchange rfl domains
  | load pass =>
    exact lay.loadExamined (inv.complete f _ busy command (.inl rfl) progress) (fun _ => pass) rfl fun m =>
      (congrArg _ (domains m)).trans (apply_ite ..)
  | counters => exact lay.complete rfl domains (by rw [setCounters_eq]) (by rw [setCounters_eq])
  | setState | clearConditions | reinit | kept | pass => exact lay.complete rfl domains rfl rfl

theorem TableInvariant.restored {s : State} (inv : TableInvariant s) {f : InFlight} (busy : s.engine = .busy f)
    (command : f.command = some .restore) (progress : f.progress = .complete) :
    TableInvariant (s.domainDone f.domain.toNat (restoredRecordOf f.staged.domainWords)) := by
  refine TableLayout.invariant_of_idle ?_ (domainDone_engine ..)
  refine inv.layout.loadExamined (inv.complete f _ busy command (.inr rfl) progress) nofun (domainDone_slots ..) fun m => ?_
  rw [domainAt_domainDone]
  split <;> rfl

/-! ### Every step -/

theorem TableLayout.fullReset (s : State) : TableLayout s.fullReset where
  bounds n _ := by rw [domainAt_fullReset]; decide
  own n _ := by rw [domainAt_fullReset]; decide
  apart n m _ _ _ := by rw [domainAt_fullReset, domainAt_fullReset]; decide
  owned i _ binding := by rw [slotAt_fullReset] at binding; exact absurd rfl binding

theorem Shape.keeps_table {s t : State} {c : Instr} (inv : TableInvariant s) (shape : Shape s c t) : TableInvariant t := by
  cases shape with
  | same => exact inv
  | fullReset held f line =>
    exact TableLayout.invariant_of_not_busy ((TableLayout.fullReset s).kept rfl rfl) nofun
  | cleared due =>
    exact TableLayout.invariant_of_idle (inv.layout.kept (by simp) (by simp)) (by simp)
  | searched r rest grant queue => exact inv.searched r rest
  | walked w grant walk =>
    obtain ⟨slots, domains⟩ := walked_table s w
    refine TableInvariant.congr (s := (s.grant .ageing).stepSlot w.k w.next) ?_ ?_ (by simp [domains]) (by simp [slots])
    · exact TableInvariant.stepped (inv.congr (by simp) (by simp) (by simp)) (stepSlot_stepped ..)
    · rw [judgeFrom_engine, walked_frame, stepSlot_frame]; rfl
  | taken k o idle level => exact inv.taken k o
  | slotGranted k f grant busy command progress => exact inv.slotGranted busy progress k
  | visited sweep f o v x grant busy => exact inv.visited sweep f o v x
  | examined k f i grant busy command which progress free => exact inv.examined busy command which progress free
  | strandedDescriptor f i grant busy =>
    exact TableLayout.invariant_of_idle (inv.layout.kept rfl rfl) rfl
  | strandedRestore f i grant busy =>
    refine TableLayout.invariant_of_idle ?_ (by simp)
    exact inv.layout.complete (by simp) (domainAt_of_write (s := s) (d := { s.domainAt f.domain.toNat with restoring := false })
      (by simp)) rfl rfl
  | refusalCompleted f code busy =>
    exact TableLayout.invariant_of_idle (inv.layout.kept rfl rfl) rfl
  | completed f k t busy command progress effect => exact inv.completed busy command progress effect
  | restored f busy command progress => exact inv.restored busy command progress
  | released | linkAssert | linkRelease | notReady | turnedAway | admitted | headOff | headHeld | ticked | overran | walkStarted
  | refusedInInit | refusedBusy | pulseEnded | controlWritten | ageStepWritten | conditionsWritten | maskWritten | framed
  | windowWritten => exact inv.congr (by simp) (by simp) (by simp)

/-- Settles O57: a take establishes what an examination carries, an examination carries it to the completion, and there it shows that
the loaded segments strand no binding; a learn under an examination falls on a slot whose command DOMAIN_ON will refuse. -/
theorem stepKeepsTheTableInvariant : Obligations.StepKeepsTheTableInvariant := by
  unfold Obligations.StepKeepsTheTableInvariant
  exact step_keeps (fun s rest inv => inv.congr rfl rfl rfl) (fun _ _ _ inv shape => shape.keeps_table inv)

end Sys2Proof.Machine
end

section
/-! PROOFS. A domain is RESTORING exactly while a RESTORE of it is in flight (R33). -/

namespace Sys2Proof.Machine

/-- A RESTORE that passed its take checks is in flight. -/
def State.restores (s : State) (f : InFlight) : Prop :=
  s.engine = .busy f ∧ f.command = some .restore ∧ f.progress.isRefused = false

/-- Without a RESTORE in flight no domain is RESTORING. -/
theorem RestoringInvariant.none_restoring {s : State} (inv : RestoringInvariant s) (rest : ∀ f, ¬ s.restores f) {n : Nat}
    (hn : n < 16) : (s.domainAt n).restoring = false := by
  by_contra restoring
  obtain ⟨f, busy, command, progress, _⟩ := inv.only n hn (by simpa using restoring)
  exact rest f ⟨busy, command, progress⟩

/-- With a RESTORE in flight no other domain than its own is RESTORING. -/
theorem RestoringInvariant.others {s : State} (inv : RestoringInvariant s) {f : InFlight} (busy : s.engine = .busy f) {n : Nat}
    (hn : n < 16) (other : f.domain.toNat ≠ n) : (s.domainAt n).restoring = false := by
  by_contra restoring
  obtain ⟨g, same, _, _, domain⟩ := inv.only n hn (by simpa using restoring)
  rw [busy] at same
  cases same
  exact other domain

/-- A part with no RESTORE in flight and no domain RESTORING meets the invariant. -/
theorem RestoringInvariant.of_none {t : State} (rest : ∀ f, ¬ t.restores f)
    (none : ∀ n, n < 16 → (t.domainAt n).restoring = false) : RestoringInvariant t where
  inFlight f busy command progress := absurd ⟨busy, command, progress⟩ (rest f)
  only n hn restoring := by rw [none n hn] at restoring; cases restoring

theorem not_restores_of_idle {s : State} (idle : s.engine = .idle) (f : InFlight) : ¬ s.restores f := by
  rintro ⟨busy, _⟩
  rw [idle] at busy
  cases busy

theorem not_restores_of_init {s : State} (init : s.engine = .init) (f : InFlight) : ¬ s.restores f := by
  rintro ⟨busy, _⟩
  rw [init] at busy
  cases busy

/-- A command in flight that is no RESTORE. -/
theorem not_restores_of_command {s : State} {f : InFlight} {k : Command} (busy : s.engine = .busy f) (command : f.command = some k)
    (other : k ≠ .restore) (g : InFlight) : ¬ s.restores g := by
  rintro ⟨same, isRestore, _⟩
  rw [busy] at same
  cases same
  rw [command] at isRestore
  exact other (Option.some.inj isRestore)

/-- A command refused at its take is no RESTORE in flight. -/
theorem not_restores_of_refused {s : State} {f : InFlight} {code : ResultCode} (busy : s.engine = .busy f)
    (progress : f.progress = .refused code) (g : InFlight) : ¬ s.restores g := by
  rintro ⟨same, _, notRefused⟩
  rw [busy] at same
  cases same
  rw [progress] at notRefused
  cases notRefused

/-- An event that starts and ends no RESTORE, and leaves every domain's RESTORING. -/
theorem RestoringInvariant.quiet {s t : State} (inv : RestoringInvariant s) (before : ∀ f, ¬ s.restores f)
    (after : ∀ f, ¬ t.restores f) (restoring : ∀ n, (t.domainAt n).restoring = (s.domainAt n).restoring) : RestoringInvariant t :=
  .of_none after fun n hn => (restoring n).trans (inv.none_restoring before hn)

/-- An event that leaves which RESTORE is in flight, and every domain's RESTORING. -/
theorem RestoringInvariant.congr {s t : State} (inv : RestoringInvariant s) (engine : t.engine = s.engine)
    (restoring : ∀ n, (t.domainAt n).restoring = (s.domainAt n).restoring) : RestoringInvariant t where
  inFlight f busy command progress := by rw [restoring]; exact inv.inFlight f (engine ▸ busy) command progress
  only n hn h := by rw [engine]; exact inv.only n hn (restoring n ▸ h)

theorem RestoringInvariant.kept {s t : State} (inv : RestoringInvariant s) (engine : t.engine = s.engine)
    (domains : t.domains = s.domains) : RestoringInvariant t :=
  inv.congr engine fun n => by rw [domainAt_congr domains]

/-- The end of the RESTORE in flight, with its domain's RESTORING at no. -/
theorem RestoringInvariant.ended {s t : State} (inv : RestoringInvariant s) {f : InFlight} (busy : s.engine = .busy f)
    {d : DomainRecord} (idle : t.engine = .idle) (domains : t.domains = s.domains.setIfInBounds f.domain.toNat d)
    (restoring : d.restoring = false) : RestoringInvariant t := by
  refine .of_none (not_restores_of_idle idle) fun n hn => ?_
  rw [domainAt_of_write domains]
  split
  · exact restoring
  · next other => exact inv.others busy hn fun same => other ⟨same, hn⟩

theorem RestoringInvariant.taken {s : State} (inv : RestoringInvariant s) (idle : s.engine = .idle) (k : Option Command)
    (o : Operands) : RestoringInvariant (s.take k o) where
  inFlight f busy command progress := by
    rw [take_engine] at busy
    cases busy
    rw [inFlight_command] at command
    subst command
    obtain ⟨passed, _⟩ := inFlight_progress progress
    obtain ⟨isReset, _⟩ | ⟨_, domain, _⟩ := takeCheck_none passed
    · cases isReset
    · rw [inFlight_domain, take_domainAt, if_pos ⟨⟨rfl, progress⟩, rfl, Nat.lt_succ_of_le domain⟩]
      exact ⟨domain, rfl⟩
  only n hn restoring := by
    rw [take_domainAt] at restoring
    split at restoring
    · next started => exact ⟨_, take_engine .., started.1.1, started.1.2, started.2.1⟩
    · rw [inv.none_restoring (not_restores_of_idle idle) hn] at restoring; cases restoring

/-- An examination goes on, and with it the RESTORE it belongs to. -/
theorem RestoringInvariant.examined {s : State} (inv : RestoringInvariant s) {f : InFlight} (busy : s.engine = .busy f) {i : Nat}
    (progress : f.progress = .examine i) : RestoringInvariant ((s.grant .command).examineNext f i) where
  inFlight g same command _ := by
    rw [examineNext_engine] at same
    cases same
    rw [domainAt_examineNext, domainAt_grant]
    exact inv.inFlight f busy command (by rw [progress]; rfl)
  only n hn restoring := by
    rw [domainAt_examineNext, domainAt_grant] at restoring
    obtain ⟨g, same, command, _, domain⟩ := inv.only n hn restoring
    rw [busy] at same
    cases same
    refine ⟨_, examineNext_engine .., command, ?_, domain⟩
    obtain ⟨_, e, _⟩ | ⟨e, _⟩ := examineFrom_cases ((s.grant .command).domainAt f.domain.toNat).desc
      (descriptorOf f.staged.domainWords) (i + 1) <;> rw [e] <;> rfl

theorem PassedOn.restoring {g t : State} {f : InFlight} (passed : PassedOn g f t) (n : Nat) :
    (t.domainAt n).restoring = (g.domainAt n).restoring := by
  cases passed with
  | ended =>
    rw [domainAt_passDone]
    split
    · next same => rw [← same.1]
    · rfl
  | next => exact congrArg _ (domainAt_congr rfl n)

/-- A visit is no part of a RESTORE, before and after it. -/
theorem PassedOn.not_restores {g t : State} {f : InFlight} (passed : PassedOn g f t) {k : Command} (command : f.command = some k)
    (other : k ≠ .restore) (h : InFlight) : ¬ t.restores h := by
  cases passed with
  | ended => exact not_restores_of_idle rfl h
  | next o v x => exact not_restores_of_command (f := { f with progress := .visit o v x }) rfl command other h

theorem RestoringInvariant.visited {s : State} (inv : RestoringInvariant s) (sweep : Bool) {f : InFlight} (o v x : Nat)
    (busy : s.engine = .busy f) (command : f.command = some (if sweep then .sweep else .scan)) :
    RestoringInvariant (s.visitSlot sweep f o v x) := by
  have other : (if sweep = true then Command.sweep else .scan) ≠ .restore := by cases sweep <;> decide
  obtain ⟨g, granted, passed⟩ := visitSlot_passedOn s sweep f o v x
  refine inv.quiet (not_restores_of_command busy command other) (passed.not_restores command other) fun n => ?_
  rw [passed.restoring]
  obtain rfl | ⟨_, rfl⟩ := granted
  · rw [domainAt_grant]
  · rw [domainAt_setSlot, domainAt_grant]

theorem RestoringInvariant.completed {s t : State} (inv : RestoringInvariant s) {f : InFlight} {k : Command}
    (busy : s.engine = .busy f) (command : f.command = some k) (effect : s.completionOf f k = some t) : RestoringInvariant t := by
  have other : k ≠ .restore := by rintro rfl; cases effect
  obtain ⟨d, r, snapshot, pulse, completed, _, rfl⟩ := completionOf_some effect
  refine inv.quiet (not_restores_of_command busy command other) (not_restores_of_idle rfl) fun n => ?_
  rw [domainAt_of_write (s := s) rfl]
  split
  · next same =>
    rw [← same.1]
    cases completed with
    | counters => rw [setCounters_eq]
    | exchange | setState | clearConditions | reinit | kept | load | pass => rfl
  · rfl

theorem Stepped.same {s t : State} {k i : Nat} (stepped : Stepped s k i t) (n : Nat) : SameService (s.domainAt n) (t.domainAt n) := by
  cases stepped with
  | still => exact .refl _
  | aged => rw [domainAt_setSlot]; exact .refl _
  | retired =>
    rw [domainAt_setDomain]
    split
    · next same => rw [← same.1]; exact ⟨by simp, by simp, by simp⟩
    · rw [domainAt_setSlot]; exact .refl _

/-- A walk's step leaves STATE, the descriptor and RESTORING of every domain. -/
theorem walked_same (s : State) (w : Walk) (n : Nat) : SameService (s.domainAt n) ((s.walked w).domainAt n) := by
  rw [domainAt_congr (walked_table s w).2]
  simpa using (stepSlot_stepped (s.grant .ageing) w.k w.next).same n

theorem walked_engine (s : State) (w : Walk) : (s.walked w).engine = s.engine := by rw [walked_frame]

theorem Shape.keeps_restoring {s t : State} {c : Instr} (inv : RestoringInvariant s) (shape : Shape s c t) :
    RestoringInvariant t := by
  cases shape with
  | same => exact inv
  | fullReset held f line =>
    exact .of_none (not_restores_of_init rfl) fun n _ => congrArg DomainRecord.restoring (domainAt_fullReset s n)
  | cleared due =>
    simp only [State.clearing, Bool.and_eq_true] at due
    exact inv.quiet (not_restores_of_init ((inInit_iff s).mp due.1)) (not_restores_of_idle (by simp))
      fun n => by rw [domainAt_judgeFrom]; rfl
  | searched r rest grant queue => exact inv.congr (searchEvent_engine ..) fun n => (searchEvent_same s r rest n).restoring
  | walked w grant walk =>
    exact inv.congr (by rw [judgeFrom_engine, walked_engine]) fun n => by rw [domainAt_judgeFrom]; exact (walked_same s w n).restoring
  | taken k o idle level => exact inv.taken idle k o
  | slotGranted k f grant busy command progress uses =>
    have other : k ≠ .restore := by rintro rfl; cases uses
    obtain ⟨_, _, e⟩ | ⟨_, _, e⟩ := slotCommand_cases s k f <;> rw [e] <;>
      exact inv.quiet (not_restores_of_command busy command other) (not_restores_of_idle rfl) fun n => rfl
  | visited sweep f o v x grant busy command progress => exact inv.visited sweep o v x busy command
  | examined k f i grant busy command which progress free => exact inv.examined busy progress
  | strandedDescriptor f i grant busy command progress =>
    exact inv.quiet (not_restores_of_command busy command nofun) (not_restores_of_idle rfl) fun n => rfl
  | strandedRestore f i grant busy command progress =>
    exact inv.ended busy (d := { s.domainAt f.domain.toNat with restoring := false }) (by simp) (by simp) rfl
  | refusalCompleted f code busy progress =>
    exact inv.quiet (not_restores_of_refused busy progress) (not_restores_of_idle rfl) fun n => rfl
  | completed f k t busy command progress effect => exact inv.completed busy command effect
  | restored f busy command progress => exact inv.ended busy (by simp) (domainDone_domains ..) rfl
  | released | linkAssert | linkRelease | notReady | turnedAway | admitted | headOff | headHeld | ticked | overran | walkStarted
  | refusedInInit | refusedBusy | pulseEnded | controlWritten | ageStepWritten | conditionsWritten | maskWritten | framed
  | windowWritten => exact inv.kept (by simp) (by simp)

/-- Settles O58: RESTORING is set at the take of a RESTORE that passes its checks, and it returns to no in the event that ends that
command; every other event leaves both. -/
theorem stepKeepsTheRestoringInvariant : Obligations.StepKeepsTheRestoringInvariant := by
  unfold Obligations.StepKeepsTheRestoringInvariant
  exact step_keeps (fun s rest inv => inv.kept rfl rfl) (fun _ _ _ inv shape => shape.keeps_restoring inv)

end Sys2Proof.Machine
end

section
/-! PROOFS. The Command Engine's claim, every CURSOR and every visit in their bounds (R148, R164, R167, R168). -/

namespace Sys2Proof.Machine

/-! ### Cursors -/

/-- A CURSOR, where there is one, stands within its segment (R164). -/
def DomainRecord.cursorWithin (d : DomainRecord) : Prop :=
  ∀ c, d.cursor = some c → c.offset ≤ (d.desc.segment c.segment).size

theorem cursorWithin_of_none {d : DomainRecord} (none : d.cursor = none) : d.cursorWithin := by
  intro c h
  rw [none] at h
  cases h

theorem cursorWithin_of_same {d e : DomainRecord} (within : d.cursorWithin) (cursor : e.cursor = d.cursor) (desc : e.desc = d.desc) :
    e.cursorWithin := by
  intro c h
  rw [desc]
  exact within c (cursor ▸ h)

theorem PassInvariant.within {s : State} (inv : PassInvariant s) {n : Nat} (hn : n < 16) : (s.domainAt n).cursorWithin :=
  fun c h => inv.cursor n c hn h

/-- Every CURSOR after one domain's record is written. -/
theorem PassInvariant.within_of_write {s t : State} (inv : PassInvariant s) {n : Nat} {d : DomainRecord}
    (domains : t.domains = s.domains.setIfInBounds n d) (within : n < 16 → d.cursorWithin) {m : Nat} (hm : m < 16) :
    (t.domainAt m).cursorWithin := by
  rw [domainAt_of_write domains]
  split
  · next same => exact within (same.1 ▸ hm)
  · exact inv.within hm

theorem CompletedAs.cursorWithin {s : State} {f : InFlight} {k : Command} {d : DomainRecord} (completed : CompletedAs s f k d)
    (within : (s.domainAt f.domain.toNat).cursorWithin) : d.cursorWithin := by
  cases completed with
  | exchange | reinit | load | pass => exact cursorWithin_of_none rfl
  | counters => rw [setCounters_eq]; exact within
  | setState | clearConditions | kept => exact within

/-! ### What meets the invariant -/

theorem PassInvariant.of_idle {t : State} (claim : t.commandClaim = false) (idle : t.engine = .idle)
    (within : ∀ n, n < 16 → (t.domainAt n).cursorWithin) (count : t.result.count ≤ 64) : PassInvariant t where
  claim := by rw [claim, idle]
  cursor n c hn h := within n hn c h
  visit f o v r busy := by rw [idle] at busy; cases busy
  count := count

/-- An event that leaves the engine, its claim and RESULT, and every CURSOR and descriptor. -/
theorem PassInvariant.congr {s t : State} (inv : PassInvariant s) (claim : t.commandClaim = s.commandClaim)
    (engine : t.engine = s.engine) (result : t.result = s.result) (desc : ∀ n, (t.domainAt n).desc = (s.domainAt n).desc)
    (cursor : ∀ n, (t.domainAt n).cursor = (s.domainAt n).cursor) : PassInvariant t where
  claim := by rw [claim, engine, inv.claim]
  cursor n c hn h := by rw [desc]; exact inv.cursor n c hn (cursor n ▸ h)
  visit f o v r busy progress := by rw [desc]; exact inv.visit f o v r (engine ▸ busy) progress
  count := result ▸ inv.count

theorem PassInvariant.kept {s t : State} (inv : PassInvariant s) (claim : t.commandClaim = s.commandClaim)
    (engine : t.engine = s.engine) (result : t.result = s.result) (domains : t.domains = s.domains) : PassInvariant t :=
  inv.congr claim engine result (fun n => by rw [domainAt_congr domains]) fun n => by rw [domainAt_congr domains]

/-- A command that waits for no grant has no claim (R148). -/
theorem PassInvariant.no_claim {s : State} (inv : PassInvariant s) {f : InFlight} (busy : s.engine = .busy f)
    (waits : f.progress.claims = false) : s.commandClaim = false := by
  rw [inv.claim, busy]
  exact waits

/-! ### Events of the Command Engine -/

/-- Only a pass starts with a visit, at an offset before its segment's end (R166). -/
theorem startOf_visit {s : State} {o : Operands} {staged : Staged} {k : Command} {p v r : Nat}
    (start : s.startOf o staged k = .visit p v r) :
    v = 0 ∧ r = 0 ∧ k ≠ .reset ∧ p < ((s.domainAt o.domain.toNat).desc.segment (criteriaOf o.flags).segment).size := by
  have examination (which : k = .setDescriptor ∨ k = .restore) : False := by
    have notRefused : (s.startOf o staged k).isRefused = false := by rw [start]; rfl
    obtain ⟨_, _, e⟩ := startOf_examination which notRefused
    obtain ⟨_, e', _⟩ | ⟨e', _⟩ := examineFrom_cases (s.domainAt o.domain.toNat).desc (descriptorOf staged.domainWords) 0 <;>
      rw [start, e'] at e <;> cases e
  cases k
  case scan | sweep =>
    simp only [State.startOf] at start
    obtain ⟨_, e⟩ | e | ⟨_, e, bound⟩ := passStart_cases (s.domainAt o.domain.toNat) o.flags <;> rw [e] at start <;> cases start
    exact ⟨rfl, rfl, by decide, bound⟩
  case setDescriptor => exact (examination (.inl rfl)).elim
  case restore => exact (examination (.inr rfl)).elim
  case setState => simp only [State.startOf] at start; split at start <;> cases start
  all_goals cases start

theorem take_cursor (s : State) (c : Option Command) (o : Operands) (n : Nat) :
    ((s.take c o).domainAt n).cursor = (s.domainAt n).cursor := by
  rw [take_domainAt]; split <;> rfl

theorem PassInvariant.taken {s : State} (inv : PassInvariant s) (k : Option Command) (o : Operands) : PassInvariant (s.take k o) where
  claim := by rw [take_commandClaim, take_engine]
  cursor n c hn h := by rw [take_desc]; exact inv.cursor n c hn (take_cursor s k o n ▸ h)
  visit f p v r busy progress := by
    rw [take_engine] at busy
    cases busy
    obtain ⟨passed, k', rfl, start⟩ := inFlight_progress (by rw [progress]; rfl)
    obtain ⟨rfl, rfl, notReset, bound⟩ := startOf_visit (start.symm.trans progress)
    obtain ⟨isReset, _⟩ | ⟨_, domain, _⟩ := takeCheck_none passed
    · exact absurd isReset notReset
    · exact ⟨domain, by decide, Nat.le_refl 0, fun _ => rfl, by rw [take_desc]; exact bound⟩
  count := by rw [take_frame]; exact inv.count

theorem PassInvariant.slotGranted {s : State} (inv : PassInvariant s) (k : Command) (f : InFlight) :
    PassInvariant (s.slotCommand k f) := by
  obtain ⟨_, _, e⟩ | ⟨_, _, e⟩ := slotCommand_cases s k f <;> rw [e] <;>
    exact PassInvariant.of_idle rfl rfl (fun n hn => inv.within hn) (Nat.zero_le _)

/-- A part whose next visit is claimed, within the bounds of R167. -/
theorem PassInvariant.visiting {s t : State} (inv : PassInvariant s) {f : InFlight} {o v x : Nat} (domains : t.domains = s.domains)
    (result : t.result = s.result) (claim : t.commandClaim = true) (busy : t.engine = .busy f) (progress : f.progress = .visit o v x)
    (domain : f.domain.toNat ≤ 15) (visits : v < 64) (retired : x ≤ v) (scan : f.command = some .scan → x = 0)
    (before : o < ((s.domainAt f.domain.toNat).desc.segment (criteriaOf f.flags).segment).size) : PassInvariant t where
  claim := by simp only [claim, busy, progress, Progress.claims]
  cursor n c hn h := by
    rw [domainAt_congr domains] at h ⊢
    exact inv.cursor n c hn h
  visit g o' v' r same at_visit := by
    rw [busy] at same
    cases same
    rw [progress] at at_visit
    cases at_visit
    rw [domainAt_congr domains]
    exact ⟨domain, visits, retired, scan, before⟩
  count := result ▸ inv.count

/-- A SCAN's visit that goes on to another has retired nothing (R167). -/
theorem visitSlot_scan_retired {s : State} {f g : InFlight} {o v x o' v' x' : Nat}
    (busy : (s.visitSlot false f o v x).engine = .busy g) (progress : g.progress = .visit o' v' x') : x' = x := by
  unfold State.visitSlot at busy
  simp only [Bool.false_eq_true, if_false] at busy
  split at busy
  · cases busy
  · unfold State.passOn at busy
    split at busy
    · cases busy
    · split at busy
      · cases busy
      · cases busy
        cases progress
        rfl

theorem PassInvariant.visited {s : State} (inv : PassInvariant s) (sweep : Bool) {f : InFlight} {o v x : Nat}
    (busy : s.engine = .busy f) (command : f.command = some (if sweep then .sweep else .scan)) (progress : f.progress = .visit o v x) :
    PassInvariant (s.visitSlot sweep f o v x) := by
  obtain ⟨domain, visits, retired, scan, bound⟩ := inv.visit f o v x busy progress
  obtain ⟨g, granted, visited⟩ := visitSlot_visited s sweep f o v x retired visits bound
  have same : g.domains = s.domains ∧ g.result = s.result ∧ g.commandClaim = false := by
    obtain rfl | rfl := granted <;> simp
  obtain ⟨domains, result, claim⟩ := same
  have ended {code h cursor count} (small : count ≤ 64)
      (within : ∀ c, cursor = some c → c.segment = (criteriaOf f.flags).segment ∧
        c.offset ≤ ((s.domainAt f.domain.toNat).desc.segment (criteriaOf f.flags).segment).size) :
      PassInvariant (g.passDone f.domain.toNat code h cursor count) := by
    refine .of_idle claim rfl (fun n hn => ?_) small
    rw [domainAt_passDone, domainAt_congr domains, domainAt_congr domains]
    split
    · intro c hc
      obtain ⟨segment, offset⟩ := within c hc
      rwa [segment]
    · exact inv.within hn
  cases sweep with
  | false =>
    have scanRetired {h : InFlight} {o' v' x' : Nat} := visitSlot_scan_retired (s := s) (f := f) (g := h) (o := o) (v := v) (x := x)
      (o' := o') (v' := v') (x' := x')
    generalize s.visitSlot false f o v x = t at visited scanRetired
    cases visited with
    | ended code h cursor count small within => exact ended small within
    | next o' v' x' before visits retired =>
      exact inv.visiting domains result rfl rfl rfl domain visits retired
        (fun isScan => (scanRetired rfl rfl).trans (scan isScan)) before
  | true =>
    generalize s.visitSlot true f o v x = t at visited
    cases visited with
    | ended code h cursor count small within => exact ended small within
    | next o' v' x' before visits retired =>
      exact inv.visiting domains result rfl rfl rfl domain visits retired
        (fun isScan => by rw [command] at isScan; cases isScan) before

theorem PassInvariant.examined {s : State} (inv : PassInvariant s) (f : InFlight) (i : Nat) :
    PassInvariant ((s.grant .command).examineNext f i) where
  claim := by rw [examineNext_commandClaim, examineNext_engine]
  cursor n c hn h := by
    rw [domainAt_examineNext, domainAt_grant] at h ⊢
    exact inv.cursor n c hn h
  visit g o v r busy progress := by
    rw [examineNext_engine] at busy
    cases busy
    obtain ⟨_, e, _⟩ | ⟨e, _⟩ := examineFrom_cases ((s.grant .command).domainAt f.domain.toNat).desc
      (descriptorOf f.staged.domainWords) (i + 1) <;> rw [e] at progress <;> cases progress
  count := by rw [examineNext_result]; exact inv.count

theorem PassInvariant.completed {s t : State} (inv : PassInvariant s) {f : InFlight} {k : Command} (busy : s.engine = .busy f)
    (progress : f.progress = .complete) (effect : s.completionOf f k = some t) : PassInvariant t := by
  obtain ⟨d, r, snapshot, pulse, completed, count, rfl⟩ := completionOf_some effect
  refine .of_idle (inv.no_claim busy (by rw [progress]; rfl)) rfl (fun n hn => ?_) (by rw [complete_result, count]; exact Nat.zero_le _)
  exact inv.within_of_write rfl (fun bound => completed.cursorWithin (inv.within bound)) hn

/-! ### Every step -/

theorem Shape.keeps_pass {s t : State} {c : Instr} (inv : PassInvariant s) (shape : Shape s c t) : PassInvariant t := by
  cases shape with
  | same => exact inv
  | fullReset held f line =>
    have domains (n : Nat) : ({ s.fullReset with resetHeld := held, frame := f } : State).domainAt n = .reset :=
      domainAt_fullReset s n
    exact {
      claim := rfl
      cursor := fun n c _ h => by rw [domains] at h; cases h
      visit := fun _ _ _ _ busy => nomatch busy
      count := Nat.zero_le _ }
  | cleared due =>
    simp only [State.clearing, Bool.and_eq_true] at due
    have init := (inInit_iff s).mp due.1
    have claim : s.commandClaim = false := by rw [inv.claim, init]
    exact .of_idle (by simpa using claim) (by simp) (fun n hn => by rw [domainAt_judgeFrom]; exact inv.within hn)
      (by simpa using inv.count)
  | searched r rest grant queue =>
    refine inv.congr (by rw [searchEvent_frame]) (searchEvent_engine ..) (by rw [searchEvent_frame])
      (fun n => (searchEvent_same s r rest n).desc) fun n => ?_
    rw [searchEvent_domainAt]
    split
    · next same => rw [← same.1]; exact (effectOf_record s r).cursor
    · rfl
  | walked w grant walk =>
    refine inv.congr (by rw [judgeFrom_commandClaim, walked_frame]) (by rw [judgeFrom_engine, walked_engine])
      (by rw [judgeFrom_result, walked_frame]) (fun n => by rw [domainAt_judgeFrom]; exact (walked_same s w n).desc) fun n => ?_
    rw [domainAt_judgeFrom, domainAt_congr (walked_table s w).2]
    have stepped := stepSlot_stepped (s.grant .ageing) w.k w.next
    generalize (s.grant .ageing).stepSlot w.k w.next = t at stepped
    cases stepped with
    | still | aged => rfl
    | retired =>
      rw [domainAt_setDomain]
      split
      · next same => rw [← same.1]; simp
      · rfl
  | taken k o idle level => exact inv.taken k o
  | slotGranted k f grant busy command progress uses => exact inv.slotGranted k f
  | visited sweep f o v x grant busy command progress => exact inv.visited sweep busy command progress
  | examined k f i grant busy command which progress free => exact inv.examined f i
  | strandedDescriptor f i grant busy command progress => exact PassInvariant.of_idle rfl rfl (fun n hn => inv.within hn) (Nat.zero_le _)
  | strandedRestore f i grant busy command progress =>
    refine .of_idle (by simp) (by simp) (fun n hn => ?_) (by simp [Result.onSlot])
    exact inv.within_of_write (d := { s.domainAt f.domain.toNat with restoring := false }) (by simp) (fun bound => inv.within bound) hn
  | refusalCompleted f code busy progress =>
    exact .of_idle (inv.no_claim busy (by rw [progress]; rfl)) rfl (fun n hn => inv.within hn) (Nat.zero_le _)
  | completed f k t busy command progress effect => exact inv.completed busy progress effect
  | restored f busy command progress =>
    refine .of_idle ?_ (domainDone_engine ..) (fun n hn => ?_) (by simp [Result.plain])
    · rw [domainDone_commandClaim]; exact inv.no_claim busy (by rw [progress]; rfl)
    · exact inv.within_of_write (domainDone_domains ..) (fun _ => cursorWithin_of_none rfl) hn
  | released | linkAssert | linkRelease | notReady | turnedAway | admitted | headOff | headHeld | ticked | overran | walkStarted
  | refusedInInit | refusedBusy | pulseEnded | controlWritten | ageStepWritten | conditionsWritten | maskWritten | framed
  | windowWritten => exact inv.kept (by simp) (by simp) (by simp) (by simp)

/-- Settles O59: takes, grants and visits place and use the claim with the progress they leave, and a completion writes a CURSOR that is
absent or within the segment just walked. -/
theorem stepKeepsThePassInvariant : Obligations.StepKeepsThePassInvariant := by
  unfold Obligations.StepKeepsThePassInvariant
  exact step_keeps (fun s rest inv => inv.kept rfl rfl rfl rfl) (fun _ _ _ inv shape => shape.keeps_pass inv)

end Sys2Proof.Machine
end

section
/-! PROOFS. The part stands at its reset values throughout INIT (R22, R67, R142, R177 to R179, R188). -/

namespace Sys2Proof.Machine

/-- The state that INIT asks for: the reset values, with the lines, the frame in progress, STATUS's two flags and what has been sent as
they stand. -/
def State.initial (s : State) : State := { s.fullReset with frame := s.frame, refused := s.refused, frameError := s.frameError }

/-- An event outside INIT that stays outside it, with RESET_N as it was: INIT has nothing to show, and RESET_N is released. -/
theorem InitInvariant.outside {s t : State} (inv : InitInvariant s) (before : s.inInit = false) (after : t.inInit = false)
    (line : t.resetHeld = s.resetHeld) : InitInvariant t where
  atReset init := by rw [after] at init; cases init
  held held := by
    have init := (inv.held (line ▸ held)).1
    rw [before] at init
    cases init

theorem InitInvariant.command {s t : State} (inv : InitInvariant s) (same : CommandFrame s t) : InitInvariant t :=
  inv.outside same.before same.after (by rw [same.rest])

/-- A part that does not stand at its reset values is outside INIT. -/
theorem InitInvariant.out {s : State} (inv : InitInvariant s) (differs : s ≠ s.initial) : s.inInit = false := by
  by_contra init
  exact differs (inv.atReset (by simpa using init))

theorem InitInvariant.out_of_queue {s : State} (inv : InitInvariant s) {r : Request} {rest : List Request}
    (queue : s.queue = r :: rest) : s.inInit = false :=
  inv.out fun e => nomatch queue.symm.trans (congrArg State.queue e)

theorem InitInvariant.out_of_timer {s : State} (inv : InitInvariant s) {b : BitVec 8} (runs : s.ageInterval = some b) :
    s.inInit = false :=
  inv.out fun e => nomatch runs.symm.trans (congrArg State.ageInterval e)

theorem InitInvariant.out_of_walk {s : State} (inv : InitInvariant s) {w : Walk} (walk : s.walk = some w) : s.inInit = false :=
  inv.out fun e => nomatch walk.symm.trans (congrArg State.walk e)

theorem InitInvariant.out_of_pulse {s : State} (inv : InitInvariant s) (pulse : s.pulse = true) : s.inInit = false :=
  inv.out fun e => nomatch pulse.symm.trans (congrArg State.pulse e)

/-- An event that changes the lines, the frame, STATUS's two flags and what has been sent alone, in INIT or outside it. -/
theorem InitInvariant.port {s t : State} (inv : InitInvariant s)
    (rest : t = { s with
      resetHeld := t.resetHeld, linkReset := t.linkReset, responses := t.responses, sdoWords := t.sdoWords, pending := t.pending
      frame := t.frame, refused := t.refused, frameError := t.frameError })
    (held : t.resetHeld = true → s.resetHeld = true ∧ t.refused = s.refused ∧ t.frameError = s.frameError) : InitInvariant t := by
  have init : t.inInit = s.inInit := by rw [rest]; rfl
  exact {
    atReset := fun inside => rest.trans (congrArg (fun u : State => { u with
      resetHeld := t.resetHeld, linkReset := t.linkReset, responses := t.responses, sdoWords := t.sdoWords, pending := t.pending
      frame := t.frame, refused := t.refused, frameError := t.frameError }) (inv.atReset (init ▸ inside)))
    held := fun h => by
      obtain ⟨before, refused, frameError⟩ := held h
      rw [init, refused, frameError]
      exact inv.held before }

theorem InitInvariant.linkAsserted {s : State} (inv : InitInvariant s) :
    InitInvariant { s with linkReset := true, queue := [], holding := false, searchClaim := false } := by
  by_cases init : s.inInit = true
  · have e := inv.atReset init
    have queue : s.queue = [] := congrArg State.queue e
    have holding : s.holding = false := congrArg State.holding e
    have claim : s.searchClaim = false := congrArg State.searchClaim e
    have same : { s with linkReset := true, queue := [], holding := false, searchClaim := false } =
        { s with linkReset := true, queue := s.queue, holding := s.holding, searchClaim := s.searchClaim } := by
      rw [queue, holding, claim]
    rw [same]
    exact inv.port rfl fun held => ⟨held, rfl, rfl⟩
  · have out : s.inInit = false := by simpa using init
    exact inv.outside out out rfl

theorem Shape.keeps_init {s t : State} {c : Instr} (inv : InitInvariant s) (shape : Shape s c t) : InitInvariant t := by
  cases shape with
  | same => exact inv
  | fullReset held f line => exact ⟨fun _ => rfl, fun _ => ⟨rfl, rfl, rfl⟩⟩
  | released => exact inv.port rfl nofun
  | cleared due =>
    simp only [State.clearing, Bool.and_eq_true, Bool.not_eq_true'] at due
    exact {
      atReset := fun init => by rw [inInit_judgeFrom] at init; cases init
      held := fun held => by rw [judgeFrom_resetHeld] at held; exact nomatch due.2.symm.trans held }
  | linkAssert => exact inv.linkAsserted
  | linkRelease | notReady => exact inv.port rfl fun held => ⟨held, rfl, rfl⟩
  | turnedAway v d o out => exact inv.outside out (by simpa using out) (by simp)
  | admitted v line out => exact inv.outside out out rfl
  | headOff r rest empty queue | headHeld r rest empty queue =>
    exact inv.outside (inv.out_of_queue queue) (inv.out_of_queue queue) rfl
  | searched r rest grant queue =>
    rw [searchEvent_frame]
    exact inv.outside (inv.out_of_queue queue) (inv.out_of_queue queue) rfl
  | ticked b runs room => exact inv.outside (inv.out_of_timer runs) (inv.out_of_timer runs) rfl
  | overran b runs full => exact inv.outside (inv.out_of_timer runs) ((inInit_raiseDevice ..).trans (inv.out_of_timer runs)) (by simp)
  | walkStarted due =>
    simp only [State.walkDue, Bool.and_eq_true, Bool.not_eq_true'] at due
    exact inv.outside due.2 due.2 rfl
  | walked w grant walk =>
    rw [walked_frame]
    exact inv.outside (inv.out_of_walk walk) ((inInit_judgeFrom ..).trans (inv.out_of_walk walk)) (by simp)
  | refusedInInit init =>
    refine inv.port rfl fun held => ⟨held, ?_, rfl⟩
    have line : s.resetHeld = true := held
    simp [line]
  | refusedBusy f busy => exact inv.outside (inInit_of_engine_busy busy) (inInit_of_engine_busy busy) rfl
  | taken k o idle level => exact inv.command (take_commandFrame idle ..)
  | slotGranted k f grant busy => exact inv.command (slotCommand_commandFrame busy k)
  | visited sweep f o v x grant busy => exact inv.command (visitSlot_commandFrame busy ..)
  | examined k f i grant busy => exact inv.command (examineNext_commandFrame busy i)
  | strandedDescriptor f i grant busy | refusalCompleted f code busy =>
    exact inv.command ⟨inInit_of_engine_busy busy, rfl, rfl⟩
  | strandedRestore f i grant busy =>
    exact inv.command (judgeFrom_commandFrame ⟨inInit_of_engine_busy busy, rfl, rfl⟩)
  | completed f k t busy command progress effect => exact inv.command (completionOf_commandFrame busy effect)
  | restored f busy => exact inv.command (domainDone_commandFrame (inInit_of_engine_busy busy) ..)
  | pulseEnded pulse => exact inv.outside (inv.out_of_pulse pulse) (inv.out_of_pulse pulse) rfl
  | controlWritten d out => exact inv.outside out ((inInit_writeControl ..).trans out) (by simp)
  | ageStepWritten d out => exact inv.outside out ((inInit_writeAgeStep s d).trans out) (by simp)
  | conditionsWritten d out => exact inv.outside out ((inInit_writeDeviceConditions ..).trans out) (by simp)
  | maskWritten d out => exact inv.outside out ((inInit_writeDeviceMask ..).trans out) (by simp)
  | windowWritten d w i f out => exact inv.outside out ((inInit_writeWindow ..).trans out) (by simp)
  | framed f ws e error =>
    refine inv.port rfl fun held => ⟨held, rfl, ?_⟩
    have line : s.resetHeld = true := held
    have clear := (inv.held line).2.2
    rw [line, clear] at error
    rw [clear]
    simpa using error

/-- Settles O60: outside INIT only a full reset brings INIT back, at the reset values; in INIT every event but those of the lines, of the
frame and of refusals is ruled out by the reset values. -/
theorem stepKeepsTheInitInvariant : Obligations.StepKeepsTheInitInvariant := by
  unfold Obligations.StepKeepsTheInitInvariant
  exact step_keeps (fun s rest inv => inv.port rfl fun held => ⟨held, rfl, rfl⟩) (fun _ _ _ inv shape => shape.keeps_init inv)

end Sys2Proof.Machine
end

section
/-! PROOFS. The queue of events, the values after a full reset, and the end of INIT (00, 01, 02, 11). -/

namespace Sys2Proof.Machine

/-- Settles O1: both clauses are `step` on the two shapes of the queue. -/
theorem stepTakesTheFrontEvent : Obligations.StepTakesTheFrontEvent := by
  unfold Obligations.StepTakesTheFrontEvent
  constructor
  · intro c rest s front
    simp only [step, front]
  · intro s empty
    simp only [step, empty]

/-! ### Windows and registers of a part at its reset values -/

@[simp] theorem wordAt_replicate_zero (n i : Nat) : wordAt (Vector.replicate n (0 : Word)) i = 0 := by
  unfold wordAt
  by_cases h : i < n <;> simp [h]

theorem wordAt_result_zero (i : Nat) : wordAt Result.zero.words i = 0 := by
  by_cases h : i < 4
  · have cases : i = 0 ∨ i = 1 ∨ i = 2 ∨ i = 3 := by omega
    obtain rfl | rfl | rfl | rfl := cases <;> rfl
  · exact wordAt_past _ (by omega)

/-- Every window reads zero after a full reset (R180). -/
theorem windowWord_reset (w : Byte) (i : Nat) : State.reset.windowWord w i = 0 := by
  have binding : shownBindingWord State.reset.stagingBinding i = 0 := by
    unfold shownBindingWord
    rw [show State.reset.stagingBinding = Vector.replicate 16 0 from rfl, wordAt_replicate_zero]
    simp
  have domain : shownDomainWord State.reset.stagingDomain i = 0 := by
    unfold shownDomainWord
    rw [show State.reset.stagingDomain = Vector.replicate 24 0 from rfl, wordAt_replicate_zero]
    simp
  have view : wordAt State.reset.bindingView i = 0 := wordAt_replicate_zero 16 i
  have snapshot : wordAt State.reset.snapshot i = 0 := wordAt_replicate_zero 24 i
  have result : wordAt State.reset.result.words i = 0 := wordAt_result_zero i
  unfold State.windowWord
  rw [binding, domain, view, snapshot, result]
  simp

/-- Settles O3: slots and domain records by `slotAt_reset` and `domainAt_reset`, the windows by `windowWord_reset`; every other clause is a
field of `State.reset` or a view of it. -/
theorem resetStateHoldsTheSpecsValues : Obligations.ResetStateHoldsTheSpecsValues := by
  unfold Obligations.ResetStateHoldsTheSpecsValues
  refine ⟨fun _ => rfl, fun i _ => slotAt_reset i, fun n _ => domainAt_reset n, rfl, by decide, rfl, rfl, rfl, rfl, rfl, rfl, rfl, rfl, rfl,
    by decide, by decide, by decide, ?_⟩
  exact ⟨by decide, by decide, by decide, by decide, by decide, by decide, by decide, by decide, windowWord_reset⟩

/-! ### The invariants after a full reset -/

theorem SlotsInvariant.reset : SlotsInvariant State.reset := fun i _ => by
  rw [slotAt_reset]
  exact free_wellFormed 0

theorem AgeingInvariant.reset : AgeingInvariant State.reset where
  claim := rfl
  walk _ h := nomatch h
  ticks := Nat.zero_le _
  timer := rfl
  init _ := ⟨rfl, rfl⟩

theorem TableInvariant.reset : TableInvariant State.reset :=
  TableLayout.invariant_of_not_busy ((TableLayout.fullReset State.reset).kept rfl rfl) nofun

theorem RestoringInvariant.reset : RestoringInvariant State.reset :=
  .of_none (not_restores_of_init rfl) fun n _ => by rw [domainAt_reset]; rfl

theorem PassInvariant.reset : PassInvariant State.reset where
  claim := rfl
  cursor n c _ h := by rw [domainAt_reset] at h; cases h
  visit _ _ _ _ busy := nomatch busy
  count := Nat.zero_le _

theorem InitInvariant.reset : InitInvariant State.reset := ⟨fun _ => rfl, nofun⟩

/-- Settles O53: the eight invariants, one by one. -/
theorem resetMeetsEveryInvariant : Obligations.ResetMeetsEveryInvariant := by
  unfold Obligations.ResetMeetsEveryInvariant
  exact ⟨.of_empty rfl rfl rfl, .reset, .reset, .reset, .reset, .reset, .reset, nofun⟩

/-! ### Full resets and the end of INIT (R21, R22, R67, R161, R188) -/

/-- A frame in progress is ended, and its later bytes are ignored (R188). -/
theorem fullReset_frame_eq (s : State) : s.fullReset.frame = if s.frame = .idle then .idle else .ignoring := by
  unfold State.fullReset
  cases s.frame <;> rfl

theorem exec_powerOn (s : State) : exec .powerOn s = execPowerOn s := rfl

theorem exec_resetNAssert (s : State) : exec .resetNAssert s = execResetNAssert s := rfl

theorem exec_reset (o : Operands) (s : State) : exec (.reset o) s = commandFrame (some .reset) o s := rfl

theorem exec_tableClearingCompletion (s : State) : exec .tableClearingCompletion s = execTableClearingCompletion s := rfl

theorem fullReset_eq (s : State) : s.fullReset = { State.reset with
    resetHeld := s.resetHeld, linkReset := s.linkReset, responses := s.responses, sdoWords := s.sdoWords, pending := s.pending
    frame := if s.frame = .idle then .idle else .ignoring } := by
  rw [← fullReset_frame_eq]
  rfl

/-- The take of a permitted RESET is the full reset (R161). -/
theorem commandFrame_reset_permitted {s : State} (ready : s.readyToTake) {o : Operands} (level : o.rpl = 0) :
    commandFrame (some .reset) o s = .next s.fullReset := by
  obtain ⟨idle, opened⟩ := ready
  have permitted : commandLevel o.rpl = 0 := (commandLevel_eq_zero_iff o.rpl).mpr level
  rw [commandFrame, inFrame_opened opened]
  simp [State.deliver, idle, permitted]

/-- STATUS by the bits of Table 11-2. -/
theorem statusWord_toNat (s : State) : s.statusWord.toNat = s.pendingTicks % 4 * 2 ^ 8 + (!s.inInit).toNat * 2 ^ 7 +
    (match s.engine with | .init => 0 | .idle => 1 | .busy _ => 2) * 2 ^ 5 + s.refused.toNat * 2 ^ 4 + s.frameError.toNat * 2 ^ 3 +
    s.summary.toNat * 2 ^ 2 + s.walk.isSome.toNat * 2 ^ 1 := by
  have engine : s.engine.code.toNat = match s.engine with | .init => 0 | .idle => 1 | .busy _ => 2 := by
    cases s.engine <;> rfl
  unfold State.statusWord
  simp only [toNat_append_sum, toNat_bit, engine, BitVec.toNat_ofNat]
  omega

/-- READY is set in STATUS outside INIT (R143). -/
theorem statusWord_ready (s : State) : s.statusWord.getLsbD 7 = !s.inInit := by
  have engine : (match s.engine with | .init => 0 | .idle => 1 | .busy _ => 2) ≤ 2 := by cases s.engine <;> simp
  have refused := s.refused.toNat_le
  have frameError := s.frameError.toNat_le
  have summary := s.summary.toNat_le
  have walk := s.walk.isSome.toNat_le
  have ready := (!s.inInit).toNat_le
  rw [Bool.eq_iff_iff, getLsbD_iff, bitsAt, statusWord_toNat, ← Bool.toNat_eq_one]
  omega

/-- The clearing that is due ends INIT: the engine is IDLE, and the age timer starts its first interval (R22, R98). -/
theorem execTableClearingCompletion_due {s : State} (due : s.clearing = true) :
    execTableClearingCompletion s = .next (s.judgeFrom { s with engine := .idle, ageInterval := intervalOf s.ageStep }) := by
  rw [execTableClearingCompletion, if_pos due]

theorem clearing_iff (s : State) : s.clearing = true ↔ s.inInit = true ∧ s.resetHeld = false := by
  simp [State.clearing]

/-- Judging ATTN changes the pulse alone (R137). -/
theorem judgeFrom_eq (before s : State) : before.judgeFrom s = { s with pulse := (before.judgeFrom s).pulse } := by
  unfold State.judgeFrom
  split <;> rfl

/-- Settles O4: the three resets are `State.fullReset` written out (`fullReset_eq`), and the end of INIT is the clearing where it is due. -/
theorem fullResetsAndTheEndOfInit : Obligations.FullResetsAndTheEndOfInit := by
  unfold Obligations.FullResetsAndTheEndOfInit
  intro s base
  refine ⟨?powerOn, ?assert, ?command, rfl, ?clearing, ?notDue⟩
  case powerOn => rw [exec_powerOn, execPowerOn, fullReset_eq]
  case assert => rw [exec_resetNAssert, execResetNAssert, fullReset_eq]
  case command =>
    intro o ready level
    have opened : s.frame ≠ .idle := by rw [ready.2]; exact nofun
    rw [exec_reset, commandFrame_reset_permitted ready level, fullReset_eq, if_neg opened]
  case clearing =>
    intro init released
    refine ⟨_, execTableClearingCompletion_due ((clearing_iff s).mpr ⟨init, released⟩), ?_, ?_⟩
    · exact judgeFrom_eq ..
    · rw [statusWord_ready, inInit_judgeFrom]; rfl
  case notDue =>
    intro notDue
    have clearing : ¬ s.clearing = true := by
      rw [clearing_iff]
      rintro ⟨init, released⟩
      simp [init, released] at notDue
    rw [exec_tableClearingCompletion, execTableClearingCompletion, if_neg clearing]

end Sys2Proof.Machine
end

section
/-! PROOFS. No event touches the queue of events or is refused, and one answers a next state exactly where it is due (R176, log entry 2). -/

namespace Sys2Proof.Machine

/-! ### What an outcome answers -/

/-- An outcome that is never a refusal, and is a next state exactly where a test holds. -/
def Answers (o : Out) (test : Bool) : Prop := (∀ r, o ≠ .refused r) ∧ ((∃ t, o = .next t) ↔ test = true)

theorem Answers.next (t : State) : Answers (.next t) true := ⟨nofun, by simp⟩

theorem Answers.fault (r : Fault) : Answers (.fault r) false := ⟨nofun, by simp⟩

theorem Answers.of_next {o : Out} {t : State} {test : Bool} (next : o = .next t) (due : test = true) : Answers o test := by
  rw [next, due]
  exact .next t

theorem Answers.of_fault {o : Out} {r : Fault} {test : Bool} (fault : o = .fault r) (notDue : test = false) : Answers o test := by
  rw [fault, notDue]
  exact .fault r

theorem Answers.guard {p : Prop} [Decidable p] {o : Out} {r : Fault} {test : Bool} (answers : Answers o test) :
    Answers (if p then o else .fault r) (decide p && test) := by
  by_cases h : p
  · simpa [h] using answers
  · simpa [h] using Answers.fault r

theorem Answers.stray (s : State) : Answers (strayByte s) (decide (s.frame = .ignoring)) := by
  unfold strayByte
  cases h : s.frame
  case ignoring => exact .next s
  all_goals exact .fault _

/-- The byte of a frame's kind at which its row acts (R176). -/
theorem Answers.inFrame (s : State) (k : FrameKind) (t : State) : Answers (s.inFrame k (.next t)) (s.awaits (.opened k)) := by
  unfold State.inFrame State.awaits
  by_cases opened : s.frame = .opened k
  · simpa [opened] using Answers.next t
  · simpa [opened] using Answers.stray s

/-- The frame code, at which a row acts (R176, R182). -/
theorem Answers.code (s t : State) : Answers (if s.frame = .selected then .next t else strayByte s) (s.awaits .selected) := by
  unfold State.awaits
  by_cases selected : s.frame = .selected
  · simpa [selected] using Answers.next t
  · simpa [selected] using Answers.stray s

theorem Answers.registerWrite (s : State) (effect : State → State) :
    Answers (registerWrite effect s) (s.awaits (.opened .regWrite)) := .inFrame ..

theorem Answers.commandFrame (s : State) (c : Option Command) (o : Operands) :
    Answers (commandFrame c o s) (s.awaits (.opened .command)) := .inFrame ..

/-! ### The events of the Lookup Link and of the Ageing Engine -/

theorem Answers.requestArrival (v : RequestWords) (s : State) : Answers (execRequestArrival v s) true := by
  unfold execRequestArrival
  repeat' split
  all_goals exact .next _

theorem Answers.takeHead (s : State) : Answers (execTakeHead s) (!s.holding && !s.queue.isEmpty) := by
  unfold execTakeHead
  cases s.holding
  · cases s.queue with
    | nil => exact .fault _
    | cons r rest =>
      simp only [Bool.false_eq_true, if_false]
      split <;> exact .next _
  · exact .fault _

theorem Answers.lookupSearchEvent (s : State) : Answers (execLookupSearchEvent s) (due .lookupSearchEvent s) := by
  unfold execLookupSearchEvent
  refine .guard ?_
  cases s.queue with
  | nil => exact .fault _
  | cons r rest =>
    cases question : r.question with
    | lookup learn k length => simp only [question]; exact .next _
    | probe | touch => simp only [question]; exact .fault _

theorem Answers.probeSearchEvent (s : State) : Answers (execProbeSearchEvent s) (due .probeSearchEvent s) := by
  unfold execProbeSearchEvent
  refine .guard ?_
  cases s.queue with
  | nil => exact .fault _
  | cons r rest =>
    cases question : r.question with
    | probe k => simp only [question]; exact .next _
    | lookup | touch => simp only [question]; exact .fault _

theorem Answers.touchSearchEvent (s : State) : Answers (execTouchSearchEvent s) (due .touchSearchEvent s) := by
  unfold execTouchSearchEvent
  refine .guard ?_
  cases s.queue with
  | nil => exact .fault _
  | cons r rest =>
    cases question : r.question with
    | touch i gen => simp only [question]; exact .next _
    | lookup | probe => simp only [question]; exact .fault _

theorem Answers.ageTimerExpiry (s : State) : Answers (execAgeTimerExpiry s) s.ageInterval.isSome := by
  unfold execAgeTimerExpiry
  cases s.ageInterval with
  | none => exact .fault _
  | some b => simp only; split <;> exact .next _

theorem Answers.walkStart (s : State) : Answers (execWalkStart s) s.walkDue := by
  unfold execWalkStart
  cases s.walkDue
  · exact .fault _
  · exact .next _

theorem Answers.walkStep (s : State) : Answers (execWalkStep s) (decide (s.nextGrant = some .ageing) && s.walk.isSome) := by
  unfold execWalkStep
  refine .guard ?_
  cases s.walk with
  | none => exact .fault _
  | some w => exact .next _

/-! ### The Command Engine's own events -/

theorem Answers.commandGrant (s : State) : Answers (execCommandGrant s) (due .commandGrant s) := by
  unfold execCommandGrant
  refine .guard ?_
  cases s.engine with
  | init | idle => exact .fault _
  | busy f =>
    simp only
    split
    · next c command progress =>
      rw [command, progress]
      cases uses : usesSlot c <;> simp only [uses, Bool.false_eq_true, if_true, if_false]
      · exact .fault _
      · exact .next _
    · next other =>
      refine .of_fault rfl ?_
      cases command : f.command with
      | none => rfl
      | some c =>
        simp only [Bool.and_eq_false_iff, decide_eq_false_iff_not]
        exact .inr (other c command)

theorem Answers.passVisit (s : State) : Answers (execPassVisit s) (due .passVisit s) := by
  unfold execPassVisit
  refine .guard ?_
  cases s.engine with
  | init | idle => exact .fault _
  | busy f =>
    simp only
    split
    · next command progress => rw [command, progress]; exact .next _
    · next command progress => rw [command, progress]; exact .next _
    · next notScan notSweep =>
      refine .of_fault rfl ?_
      cases command : f.command with
      | none => rfl
      | some c =>
        cases progress : f.progress with
        | visit o v x =>
          have which : c ∉ [Command.scan, .sweep] := by
            rintro (_ | ⟨_, (_ | ⟨_, ⟨⟩⟩)⟩)
            · exact notScan o v x command progress
            · exact notSweep o v x command progress
          simp [which]
        | refused | complete | grant | examine => simp

/-- A command in flight other than one that is examined is no examination of `k`. -/
theorem no_examination {f : InFlight} {k : Command} (other : ∀ i, f.command = some k → f.progress = .examine i → False) :
    (match f.command with
      | some c => decide (c = k) &&
        match f.progress with | .examine _ => true | .refused _ | .complete | .grant | .visit _ _ _ => false
      | none => false) = false := by
  cases command : f.command with
  | none => rfl
  | some c =>
    cases progress : f.progress with
    | examine i => simpa using fun same : c = k => other i (by rw [command, same]) progress
    | refused | complete | grant | visit => simp

theorem Answers.descriptorExaminationGrant (s : State) :
    Answers (execDescriptorExaminationGrant s) (due .descriptorExaminationGrant s) := by
  unfold execDescriptorExaminationGrant
  refine .guard ?_
  cases s.engine with
  | init | idle => exact .fault _
  | busy f =>
    simp only
    split
    · next i command progress =>
      rw [command, progress]
      split <;> exact .next _
    · next other => exact .of_fault rfl (no_examination other)

theorem Answers.restoreExaminationGrant (s : State) : Answers (execRestoreExaminationGrant s) (due .restoreExaminationGrant s) := by
  unfold execRestoreExaminationGrant
  refine .guard ?_
  cases s.engine with
  | init | idle => exact .fault _
  | busy f =>
    simp only
    split
    · next i command progress =>
      rw [command, progress]
      split <;> exact .next _
    · next other => exact .of_fault rfl (no_examination other)

/-- The commands whose completion is COMMAND_COMPLETION (R148). -/
theorem completionOf_isSome (s : State) (f : InFlight) (c : Command) : (s.completionOf f c).isSome =
    decide (c ∈ [Command.scan, .sweep, .setDescriptor, .exchange, .setState, .snapshot, .counters, .clearConditions]) := by
  cases c <;> rfl

theorem Answers.commandCompletion (s : State) : Answers (execCommandCompletion s) s.completionDue := by
  unfold execCommandCompletion State.completionDue
  cases s.engine with
  | init | idle => exact .fault _
  | busy f =>
    simp only
    cases progress : f.progress with
    | refused code => exact .next _
    | complete =>
      cases command : f.command with
      | none => exact .fault _
      | some c =>
        simp only
        rw [← completionOf_isSome s f c]
        cases s.completionOf f c with
        | none => exact .fault _
        | some t => exact .next t
    | grant | examine | visit => exact .fault _

theorem Answers.restoreCompletion (s : State) : Answers (execRestoreCompletion s) (due .restoreCompletion s) := by
  unfold execRestoreCompletion due
  cases s.engine with
  | init | idle => exact .fault _
  | busy f =>
    simp only
    split
    · next progress command => rw [progress, command]; exact .next _
    · next other =>
      refine .of_fault rfl ?_
      rw [Bool.and_eq_false_iff, decide_eq_false_iff_not, decide_eq_false_iff_not, ← not_and_or]
      exact fun both => other both.2 both.1

/-! ### The port's frames -/

theorem Answers.statusRead (e : RegReadEvent) (s : State) : Answers (execStatusRead e s) (due (.statusRead e) s) := by
  cases e with
  | address a => exact .inFrame ..
  | sent =>
    unfold execStatusRead due strayByte
    cases s.frame with
    | regRead | ignoring => exact .next _
    | idle | selected | opened | windowRead | windowWrite | summary => exact .fault _

theorem Answers.windowRead (e : WindowReadEvent) (s : State) : Answers (execWindowRead e s) (due (.windowRead e) s) := by
  cases e with
  | header w start => exact .inFrame ..
  | word =>
    unfold execWindowRead due strayByte
    cases s.frame with
    | windowRead | ignoring => exact .next _
    | idle | selected | opened | regRead | windowWrite | summary => exact .fault _

theorem Answers.windowWrite (e : WindowWriteEvent) (s : State) : Answers (execWindowWrite e s) (due (.windowWrite e) s) := by
  cases e with
  | header w start => exact .inFrame ..
  | word data =>
    unfold execWindowWrite due strayByte
    cases s.frame with
    | windowWrite => simp only; split <;> exact .next _
    | ignoring => exact .next _
    | idle | selected | opened | regRead | windowRead | summary => exact .fault _

theorem Answers.summary (e : SummaryEvent) (s : State) : Answers (execSummary e s) (due (.summary e) s) := by
  cases e with
  | code => exact .code ..
  | word =>
    unfold execSummary due strayByte
    cases s.frame with
    | summary | ignoring => exact .next _
    | idle | selected | opened | regRead | windowRead | windowWrite => exact .fault _

theorem Answers.frameError (e : FrameOpening) (s : State) : Answers (execFrameError e s) (due (.frameError e) s) := by
  cases e with
  | fall => exact .next _
  | code c => exact .code ..

/-! ### Every event -/

/-- Every event answers a next state exactly where it is due, and otherwise a fault. -/
theorem exec_answers (c : Instr) (s : State) : Answers (exec c s) (due c s) := by
  cases c with
  | powerOn | resetNAssert | resetNRelease | linkResetAssert | linkResetRelease | frameEnd => exact .next _
  | tableClearingCompletion =>
    have test : due .tableClearingCompletion s = (decide (s.clearing = true) && true) := by simp [due, State.clearing]
    rw [test]
    exact .guard (.next _)
  | requestArrival v => exact .requestArrival v s
  | takeHead => exact .takeHead s
  | lookupSearchEvent => exact .lookupSearchEvent s
  | probeSearchEvent => exact .probeSearchEvent s
  | touchSearchEvent => exact .touchSearchEvent s
  | ageTimerExpiry => exact .ageTimerExpiry s
  | walkStart => exact .walkStart s
  | walkStep => exact .walkStep s
  | commandGrant => exact .commandGrant s
  | passVisit => exact .passVisit s
  | descriptorExaminationGrant => exact .descriptorExaminationGrant s
  | restoreExaminationGrant => exact .restoreExaminationGrant s
  | commandCompletion => exact .commandCompletion s
  | restoreCompletion => exact .restoreCompletion s
  | attnPulseEnd =>
    have test : due .attnPulseEnd s = (decide (s.pulse = true) && true) := by simp [due]
    rw [test]
    exact .guard (.next _)
  | controlWrite | ageStepWrite | deviceConditionsWrite | deviceMaskWrite | regWrite => exact .registerWrite ..
  | statusRead e => exact .statusRead e s
  | windowRead e => exact .windowRead e s
  | windowWrite e => exact .windowWrite e s
  | summary e => exact .summary e s
  | frameError e => exact .frameError e s
  | writeSlot | setVerdict | hold | release | confirm | pin | unpin | retire | readSlot | scan | sweep | setDescriptor | exchange
  | setState | snapshot | restore | counters | clearConditions | reset | unknownCommand => exact .commandFrame ..

theorem CommandFrame.pending {s t : State} (same : CommandFrame s t) : t.pending = s.pending := by rw [same.rest]

/-- No event touches the queue of events. -/
theorem Shape.pending {s t : State} {c : Instr} (shape : Shape s c t) : t.pending = s.pending := by
  cases shape with
  | searched => rw [searchEvent_frame]
  | walked w => rw [judgeFrom_pending, walked_frame]
  | taken k o idle => exact (take_commandFrame idle ..).pending
  | slotGranted k f grant busy => exact (slotCommand_commandFrame busy k).pending
  | visited sweep f o v x grant busy => exact (visitSlot_commandFrame busy ..).pending
  | completed f k t busy command progress effect => exact (completionOf_commandFrame busy effect).pending
  | same | fullReset | released | cleared | linkAssert | linkRelease | notReady | turnedAway | admitted | headOff | headHeld | ticked
  | overran | walkStarted | refusedInInit | refusedBusy | examined | strandedDescriptor | strandedRestore | refusalCompleted
  | restored | pulseEnded | controlWritten | ageStepWritten | conditionsWritten | maskWritten | framed | windowWritten => simp

/-- Settles O2: the queue of events by the shapes of a next state, and the rest by `exec_answers`. -/
theorem eventsAnswerExactlyWhereDue : Obligations.EventsAnswerExactlyWhereDue := by
  unfold Obligations.EventsAnswerExactlyWhereDue
  intro c s
  exact ⟨fun t next => (exec_shape next).pending, exec_answers c s⟩

end Sys2Proof.Machine
end

section
/-! PROOFS. Chapter 4, the Lookup Link: which requests are valid, arrivals, LINK_RESET, and the take of the head (R46, R66 to R71, R81). -/

namespace Sys2Proof.Machine

/-! ### Which requests are valid (R46) -/

/-- The kind stands in the two bits at the top of word 0 (Table 11-9). -/
theorem bitsAt_top (w : Word) : bitsAt w 30 2 = w.toNat / 2 ^ 30 := by
  have := w.isLt
  unfold bitsAt
  omega

theorem bitsAt_low (w : Word) (len : Nat) : bitsAt w 0 len = w.toNat % 2 ^ len := by
  rw [bitsAt, pow_zero, Nat.div_one]

/-- R46 by the bits of Table 11-9: the KIND, and where it uses them the key's ROLE and FAMILY, and the LENGTH. -/
theorem requestValid_iff (v : RequestWords) : requestValid v = true ↔
    bitsAt v[0] 30 2 ≠ 3 ∧
    (bitsAt v[0] 30 2 ≤ 1 → bitsAt v[0] 12 2 ≤ 1 ∧ (bitsAt v[0] 16 1 = 1 → bitsAt v[0] 10 2 ≤ 1)) ∧
    (bitsAt v[0] 30 2 = 0 → 1 ≤ bitsAt v[3] 0 16 ∧ bitsAt v[3] 0 16 ≤ 16383) := by
  have kind : bitsAt v[0] 30 2 < 4 := Nat.mod_lt _ (by decide)
  have net := bitsAt_one_cases v[0] 16
  simp only [requestValid, toNat_field]
  split
  · next lookup =>
    simp only [Bool.and_eq_true, Bool.or_eq_true, Bool.not_eq_true', getLsbD_false_iff, decide_eq_true_eq]
    omega
  · next notLookup =>
    split
    · next probe =>
      simp only [Bool.and_eq_true, Bool.or_eq_true, Bool.not_eq_true', getLsbD_false_iff, decide_eq_true_eq]
      omega
    · next notProbe =>
      rw [decide_eq_true_eq]
      omega

/-- Settles O6: `requestValid_iff`, with the bits as quotients and remainders of the words. -/
theorem requestValidityIsR46 : Obligations.RequestValidityIsR46 := by
  unfold Obligations.RequestValidityIsR46
  intro v kind role family hasNet length
  rw [requestValid_iff, bitsAt_top, bitsAt_low]
  rfl

/-! ### Arrivals (R66 to R69, R82) -/

theorem exec_requestArrival (v : RequestWords) (s : State) : exec (.requestArrival v) s = execRequestArrival v s := rfl

theorem exec_takeHead (s : State) : exec .takeHead s = execTakeHead s := rfl

/-- A device condition raised changes STICKY's set of them and the pulse (R132, R135). -/
theorem raiseDevice_eq (s : State) (c : DeviceCondition) : s.raiseDevice c = { s with
    deviceSticky := s.deviceSticky ||| c.bit, pulse := (s.raiseDevice c).pulse } := by
  unfold State.raiseDevice
  exact judgeFrom_eq ..

/-- A request turned away raises its device condition and is answered by its TAG and outcome (R68, R69). -/
theorem turnedAway_eq (s : State) (c : DeviceCondition) (r : Response) : (s.raiseDevice c).respond r = { s with
    deviceSticky := s.deviceSticky ||| c.bit, responses := s.responses ++ [r], pulse := ((s.raiseDevice c).respond r).pulse } := by
  rw [raiseDevice_eq]
  rfl

section
variable {v : RequestWords} {s : State}

theorem execRequestArrival_lineAsserted (line : s.linkReset = true) : execRequestArrival v s = .next s := by
  rw [execRequestArrival, if_pos line]

theorem execRequestArrival_notReady (line : s.linkReset = false) (init : s.inInit = true) :
    execRequestArrival v s = .next (s.respond (.bare (tagOf v) .notReady)) := by
  simp [execRequestArrival, line, init]

theorem execRequestArrival_malformed (line : s.linkReset = false) (out : s.inInit = false) (invalid : requestValid v = false) :
    execRequestArrival v s = .next ((s.raiseDevice .linkError).respond (.bare (tagOf v) .malformed)) := by
  simp [execRequestArrival, line, out, invalid]

theorem execRequestArrival_busy (line : s.linkReset = false) (out : s.inInit = false) (valid : requestValid v = true)
    (full : 8 ≤ s.queue.length) :
    execRequestArrival v s = .next ((s.raiseDevice .queueFull).respond (.bare (tagOf v) .busy)) := by
  simp [execRequestArrival, line, out, valid, full]

theorem execRequestArrival_admitted (line : s.linkReset = false) (out : s.inInit = false) (valid : requestValid v = true)
    (room : s.queue.length < 8) : execRequestArrival v s = .next { s with queue := s.queue ++ [requestOf v] } := by
  simp [execRequestArrival, line, out, valid, room]
end

/-! ### The take of the head (R71) -/

theorem outOfService_iff (d : DomainRecord) : d.outOfService = true ↔ d.state = .off ∨ d.restoring = true := by
  simp [DomainRecord.outOfService]

theorem outOfService_of_inService {d : DomainRecord} (service : d.inService) : d.outOfService = false :=
  (outOfService_false_iff d).mpr service

theorem execTakeHead_off {s : State} {r : Request} {rest : List Request} (empty : s.holding = false) (queue : s.queue = r :: rest)
    (out : (s.domainOf r).outOfService = true) :
    execTakeHead s = .next ({ s with queue := rest }.respond (.bare r.tag .off)) := by
  simp [execTakeHead, empty, queue, out]

theorem execTakeHead_held {s : State} {r : Request} {rest : List Request} (empty : s.holding = false) (queue : s.queue = r :: rest)
    (service : (s.domainOf r).outOfService = false) : execTakeHead s = .next { s with holding := true, searchClaim := true } := by
  simp [execTakeHead, empty, queue, service]

/-- Settles O7: LINK_RESET by its two rows, arrivals by the order of R66, and the take of the head by R71's test of the domain. -/
theorem linkResetArrivalsAndTheHeadOfTheQueue : Obligations.LinkResetArrivalsAndTheHeadOfTheQueue := by
  unfold Obligations.LinkResetArrivalsAndTheHeadOfTheQueue
  refine ⟨fun s => ⟨_, rfl, rfl, rfl, rfl⟩, fun v s => ?arrivals, fun s r rest empty queue => ⟨fun out => ?off, fun service => ?held⟩⟩
  case arrivals =>
    rw [exec_requestArrival]
    exact ⟨execRequestArrival_lineAsserted, execRequestArrival_notReady,
      fun line out invalid => ⟨_, execRequestArrival_malformed line out invalid, turnedAway_eq ..⟩,
      fun line out valid full => ⟨_, execRequestArrival_busy line out valid full, turnedAway_eq ..⟩, execRequestArrival_admitted⟩
  case off => exact execTakeHead_off empty queue ((outOfService_iff _).mpr out)
  case held => exact execTakeHead_held empty queue (outOfService_of_inService service)

end Sys2Proof.Machine
end

section
/-! PROOFS. Chapter 6, Activity and ageing: ticks, walks, and what a walk step makes of a binding (R98 to R106). -/

namespace Sys2Proof.Machine

/-! ### Ticks and the start of a walk (R98 to R100) -/

theorem exec_ageTimerExpiry (s : State) : exec .ageTimerExpiry s = execAgeTimerExpiry s := rfl

theorem exec_walkStart (s : State) : exec .walkStart s = execWalkStart s := rfl

theorem execAgeTimerExpiry_ticked {s : State} {b : BitVec 8} (runs : s.ageInterval = some b) (room : s.pendingTicks < 3) :
    execAgeTimerExpiry s =
      .next { s with pendingTicks := s.pendingTicks + 1, ageInterval := intervalOf s.ageStep } := by
  simp [execAgeTimerExpiry, runs, room]

theorem execAgeTimerExpiry_overran {s : State} {b : BitVec 8} (runs : s.ageInterval = some b) (full : 3 ≤ s.pendingTicks) :
    execAgeTimerExpiry s = .next ({ s with ageInterval := intervalOf s.ageStep }.raiseDevice .ageOverrun) := by
  have noRoom : ¬ s.pendingTicks < 3 := by omega
  simp [execAgeTimerExpiry, runs, noRoom]

theorem walkDue_iff (s : State) : s.walkDue = true ↔ s.walk = none ∧ 0 < s.pendingTicks ∧ s.inInit = false := by
  simp [State.walkDue, and_assoc]

/-- Settles O23: the timer's row by the room for a tick, the start of a walk by R100's three conditions. -/
theorem ticksAreCountedAndTakenByAWalk : Obligations.TicksAreCountedAndTakenByAWalk := by
  unfold Obligations.TicksAreCountedAndTakenByAWalk
  intro s
  rw [exec_ageTimerExpiry, exec_walkStart]
  refine ⟨fun runs room => ?ticked, fun runs full => ?overran, fun stopped => ?stopped, fun walk ticks out => ?start, fun notDue => ?notDue⟩
  case ticked =>
    obtain ⟨b, runs⟩ := Option.isSome_iff_exists.mp runs
    exact execAgeTimerExpiry_ticked runs room
  case overran =>
    obtain ⟨b, runs⟩ := Option.isSome_iff_exists.mp runs
    exact ⟨_, execAgeTimerExpiry_overran runs full, raiseDevice_eq ..⟩
  case stopped => rw [execAgeTimerExpiry, stopped]
  case start => rw [execWalkStart, if_pos ((walkDue_iff s).mpr ⟨walk, ticks, out⟩)]
  case notDue =>
    rw [execWalkStart, if_neg]
    rw [walkDue_iff]
    rintro ⟨walk, ticks, out⟩
    obtain h | h | h := notDue
    · exact h walk
    · omega
    · rw [out] at h; cases h

/-! ### The walk step (R101, R102, R106) -/

theorem exec_walkStep (s : State) : exec .walkStep s = execWalkStep s := rfl

theorem execWalkStep_of_grant {s : State} {w : Walk} (grant : s.nextGrant = some .ageing) (walk : s.walk = some w) :
    execWalkStep s = .next (s.judgeFrom (s.walked w)) := by
  simp only [execWalkStep, grant, walk, if_true]
  rfl

/-- The state after a walk's step, by the slots and the records that `stepSlot` leaves (R101). -/
theorem walked_of_step {s : State} {w : Walk} {slots : Vector Slot Config.slotCount}
    {domains : Vector DomainRecord Config.domainCount}
    (step : (s.grant .ageing).stepSlot w.k w.next = { s.grant .ageing with slots := slots, domains := domains }) :
    s.walked w = { s with
      lastGranted := .ageing, ageingClaim := decide (w.next < 1023)
      walk := if w.next < 1023 then some { k := w.k, next := w.next + 1 } else none, slots := slots, domains := domains } := by
  have last : w.next + 1 < 1024 ↔ w.next < 1023 := Nat.succ_lt_succ_iff
  obtain ⟨stepSlots, stepDomains⟩ := walked_table s w
  rw [walked_frame, stepSlots, stepDomains, step]
  simp only [last]

theorem stepSlot_still {s : State} {k i : Nat} (still : ¬ s.stepActs i = true) : s.stepSlot k i = s := if_neg still

theorem stepSlot_aged {s : State} {k i : Nat} {r : Slot} (acts : s.stepActs i = true)
    (aged : ageBinding (s.domainAt (s.slotAt i).domain.toNat).desc k (s.slotAt i) = some r) : s.stepSlot k i = s.setSlot i r := by
  simp only [State.stepSlot, acts, if_true, aged]

theorem stepSlot_retired {s : State} {k i : Nat} (acts : s.stepActs i = true)
    (aged : ageBinding (s.domainAt (s.slotAt i).domain.toNat).desc k (s.slotAt i) = none) :
    s.stepSlot k i = (s.setSlot i (s.slotAt i).retire).setDomain (s.slotAt i).domain.toNat
      (((s.domainAt (s.slotAt i).domain.toNat).count .aged).raise .aged) := by
  simp only [State.stepSlot, acts, if_true, aged]

/-- Settles O24: a step that does not retire leaves every record, so that ATTN judges nothing new; one that retires writes the slot and its
domain's record. -/
theorem walkStepActsUnderR102Alone : Obligations.WalkStepActsUnderR102Alone := by
  unfold Obligations.WalkStepActsUnderR102Alone
  intro s w grant walk _ i r n d acts walked
  rw [exec_walkStep, execWalkStep_of_grant grant walk]
  have stepActs : (s.grant .ageing).stepActs w.next = true ↔ acts := stepActs_iff (s := s)
  refine ⟨fun still => ?still, fun active r' aged => ?aged, fun active retired => ?retired⟩
  case still =>
    have step : (s.grant .ageing).stepSlot w.k w.next = s.grant .ageing := stepSlot_still (mt stepActs.mp still)
    rw [walked_of_step (slots := s.slots) (domains := s.domains) (by rw [step]; rfl)]
    exact congrArg Host.Outcome.next (judgeFrom_of_enabledSummary_eq rfl)
  case aged =>
    have step := stepSlot_aged (s := s.grant .ageing) (k := w.k) (stepActs.mpr active) aged
    rw [walked_of_step (slots := s.slots.setIfInBounds i r') (domains := s.domains) (by rw [step]; rfl)]
    exact congrArg Host.Outcome.next (judgeFrom_of_enabledSummary_eq rfl)
  case retired =>
    have step := stepSlot_retired (s := s.grant .ageing) (k := w.k) (stepActs.mpr active) retired
    rw [walked_of_step (slots := s.slots.setIfInBounds i (.free r.gen))
      (domains := s.domains.setIfInBounds n ((d.count .aged).raise .aged)) (by rw [step]; rfl)]
    exact ⟨_, rfl, judgeFrom_eq ..⟩

/-! ### Thresholds (R103 to R105) -/

theorem reached_iff (t : Option Nat) (idle : Nat) : reached t idle = true ↔ ∃ x, t = some x ∧ x ≤ idle := by
  cases t <;> simp [reached]

/-- A threshold exists when the one before it does and its period is not 0 (R104). -/
theorem chain_eq_some (before : Option Nat) (period : BitVec 16) (t : Nat) :
    chain before period = some t ↔ ∃ b, before = some b ∧ period.toNat ≠ 0 ∧ t = b + period.toNat := by
  have zero : period = 0 ↔ period.toNat = 0 := BitVec.toNat_eq
  cases before with
  | none => simp [chain]
  | some b =>
    by_cases stops : period = 0
    · simp [chain, stops]
    · have positive : period.toNat ≠ 0 := mt zero.mpr stops
      simp only [chain, if_neg stops, Option.some.injEq, exists_eq_left', positive, ne_eq, not_false_eq_true, true_and,
        eq_comm (a := t)]

section
variable (d : Descriptor) (idle : Nat)

theorem reached_t1 : reached d.t1 idle = true ↔ d.passes 1 idle := by
  simp [reached_iff, Descriptor.t1, chain_eq_some, Descriptor.passes, Descriptor.periods]

theorem reached_t2 : reached d.t2 idle = true ↔ d.passes 2 idle := by
  simp [reached_iff, Descriptor.t1, Descriptor.t2, chain_eq_some, Descriptor.passes, Descriptor.periods, and_assoc]

theorem reached_t3 : reached d.t3 idle = true ↔ d.passes 3 idle := by
  simp [reached_iff, Descriptor.t1, Descriptor.t2, Descriptor.t3, chain_eq_some, Descriptor.passes, Descriptor.periods, and_assoc,
    add_assoc]

theorem reached_t4 : reached d.t4 idle = true ↔ d.passes 4 idle := by
  simp [reached_iff, Descriptor.t1, Descriptor.t2, Descriptor.t3, Descriptor.t4, chain_eq_some, Descriptor.passes,
    Descriptor.periods, and_assoc, add_assoc]
end

/-- The deeper of two levels is as deep as the deeper one. -/
theorem deeper_depth (a b : Level) : (a.deeper b).depth = max a.depth b.depth := by
  unfold Level.deeper
  split <;> omega

theorem ageBinding_provisional (d : Descriptor) (k : Nat) {r : Slot} (provisional : r.state = .provisional) :
    ageBinding d k r = if d.provPeriod.toNat ≠ 0 ∧ d.provPeriod.toNat ≤ raisedIdle r.idle k then none
      else some { r with idle := BitVec.ofNat 16 (raisedIdle r.idle k) } := by
  have zero : d.provPeriod = 0 ↔ d.provPeriod.toNat = 0 := BitVec.toNat_eq
  simp only [ageBinding, provisional, ne_eq, zero]

theorem ageBinding_settled (d : Descriptor) (k : Nat) {r : Slot} (settled : r.state = .live ∨ r.state = .held) :
    ageBinding d k r =
      let idle := raisedIdle r.idle k
      let level := r.level.deeper (d.reachedLevel idle)
      if level = .rest3 ∧ reached d.t4 idle ∧ d.autoRetire then none
      else some { r with idle := BitVec.ofNat 16 idle, level := level } := by
  obtain live | held := settled
  · simp only [ageBinding, live]
  · simp only [ageBinding, held]

/-- Settles O25: the thresholds of R104 are `Descriptor.passes` (`reached_t1` to `reached_t4`), and a step by the binding's state. -/
theorem bindingsAgeThroughTheThresholds : Obligations.BindingsAgeThroughTheThresholds := by
  unfold Obligations.BindingsAgeThroughTheThresholds
  intro d k r idle
  refine ⟨fun provisional => ?provisional, fun p3 => ?rest3, fun n3 p2 => ?rest2, fun n3 n2 p1 => ?rest1, fun n3 n2 n1 => ?active,
    deeper_depth .., fun settled => ?settled⟩
  case provisional =>
    rw [ageBinding_provisional d k provisional]
    exact ⟨fun expired => if_pos expired, fun waits => if_neg waits⟩
  case rest3 => rw [Descriptor.reachedLevel, if_pos ((reached_t3 d idle).mpr p3)]
  case rest2 => rw [Descriptor.reachedLevel, if_neg (mt (reached_t3 d idle).mp n3), if_pos ((reached_t2 d idle).mpr p2)]
  case rest1 =>
    rw [Descriptor.reachedLevel, if_neg (mt (reached_t3 d idle).mp n3), if_neg (mt (reached_t2 d idle).mp n2),
      if_pos ((reached_t1 d idle).mpr p1)]
  case active =>
    rw [Descriptor.reachedLevel, if_neg (mt (reached_t3 d idle).mp n3), if_neg (mt (reached_t2 d idle).mp n2),
      if_neg (mt (reached_t1 d idle).mp n1)]
  case settled =>
    rw [ageBinding_settled d k settled, ← reached_t4]
    exact ⟨fun retires => if_pos retires, fun stays => if_neg stays⟩

end Sys2Proof.Machine
end

section
/-! PROOFS. The search (R55 to R57, R85) and the outcome rule (R130). -/

namespace Sys2Proof.Machine

/-! ### The search -/

theorem keyMatches_iff (r : Slot) (k : Key) : keyMatches r k = true ↔ roleTest r.role k.role = true ∧
    addrTest r.addrMask r.addr k.addr = true ∧ netTest r.net k.net = true ∧ portTest r.ports k.port = true ∧
    protoTest r.proto k.proto = true := by
  simp only [keyMatches, Bool.and_eq_true, and_assoc]

/-- Settles O9: both searches are the first slot of a segment, in index order, that passes a test (`slots_find?_some`). -/
theorem searchFindsTheLowestMatch : Obligations.SearchFindsTheLowestMatch := by
  unfold Obligations.SearchFindsTheLowestMatch
  intro s g k
  refine ⟨fun r => keyMatches_iff r k, fun i => ?search, fun i => ?firstFree⟩
  case search =>
    rw [State.search, slots_find?_some]
    simp only [Bool.and_eq_true, decide_eq_true_eq, Bool.and_eq_false_iff, decide_eq_false_iff_not, not_not, and_assoc, ne_eq]
  case firstFree =>
    rw [State.firstFree, slots_find?_some]
    simp only [decide_eq_true_eq, decide_eq_false_iff_not, ne_eq]

/-! ### The outcome rule -/

/-- The first element of a list that passes a test is the one that passes it with the least index. -/
theorem find?_eq_some_iff_idxOf {α : Type} [DecidableEq α] (p : α → Bool) (l : List α) (c : α) :
    l.find? p = some c ↔ c ∈ l ∧ p c = true ∧ ∀ e ∈ l, l.idxOf e < l.idxOf c → p e = false := by
  induction l with
  | nil => simp
  | cons a l ih =>
    by_cases pa : p a = true
    · rw [List.find?_cons_of_pos pa, Option.some.injEq]
      constructor
      · rintro rfl
        exact ⟨List.mem_cons_self, pa, fun e _ lt => by simp at lt⟩
      · rintro ⟨_, _, first⟩
        by_contra ne
        have fails := first a List.mem_cons_self (by simp [ne])
        rw [pa] at fails
        cases fails
    · rw [List.find?_cons_of_neg pa, ih]
      have fails : p a = false := by simpa using pa
      constructor
      · rintro ⟨mem, pc, first⟩
        refine ⟨List.mem_cons_of_mem _ mem, pc, fun e he lt => ?_⟩
        by_cases same : e = a
        · rw [same, fails]
        · have ne : a ≠ c := by rintro rfl; exact pa pc
          refine first e ((List.mem_cons.mp he).resolve_left same) ?_
          simpa [List.idxOf_cons, Ne.symm same, ne] using lt
      · rintro ⟨mem, pc, first⟩
        have ne : c ≠ a := by rintro rfl; exact pa pc
        refine ⟨(List.mem_cons.mp mem).resolve_left ne, pc, fun e he lt => ?_⟩
        by_cases same : e = a
        · rw [same, fails]
        · exact first e (List.mem_cons_of_mem _ he) (by simpa [List.idxOf_cons, Ne.symm same, Ne.symm ne] using lt)

section
variable (raised : List Condition) (mask : BitVec 8)

/-- The first raised condition, in the condition order, that the mask leaves in (R130). -/
def firstUnmasked : Option Condition := conditionOrder.find? fun c => decide (c ∈ raised) && !inSet mask c

/-- The first raised condition in the condition order (R130). -/
def firstRaised : Option Condition := conditionOrder.find? fun c => decide (c ∈ raised)

/-- The outcome rule by the first unmasked condition and the first one of all. -/
theorem outcomeRule_eq : outcomeRule raised mask =
    match firstUnmasked raised mask with
    | some c => (.fault, some c)
    | none => (.defaulted, firstRaised raised) := by
  unfold outcomeRule firstUnmasked firstRaised
  simp only [List.find?_filter, List.head?_filter, Bool.decide_and, Bool.decide_eq_true] <;> rfl

theorem firstUnmasked_some (c : Condition) : firstUnmasked raised mask = some c ↔
    c ∈ raised ∧ c ∈ conditionOrder ∧ inSet mask c = false ∧
      ∀ e ∈ raised, e ∈ conditionOrder → conditionOrder.idxOf e < conditionOrder.idxOf c → inSet mask e = true := by
  rw [firstUnmasked, find?_eq_some_iff_idxOf]
  simp only [Bool.and_eq_true, decide_eq_true_eq, Bool.not_eq_true', Bool.and_eq_false_iff, decide_eq_false_iff_not, Bool.not_eq_false']
  constructor
  · rintro ⟨order, ⟨mem, unmasked⟩, first⟩
    exact ⟨mem, order, unmasked, fun e he ho lt => (first e ho lt).resolve_left (not_not_intro he)⟩
  · rintro ⟨mem, order, unmasked, first⟩
    exact ⟨order, ⟨mem, unmasked⟩, fun e ho lt => or_iff_not_imp_left.mpr fun he => first e (not_not.mp he) ho lt⟩

theorem firstUnmasked_none : firstUnmasked raised mask = none ↔ ∀ e ∈ raised, e ∈ conditionOrder → inSet mask e = true := by
  simp only [firstUnmasked, List.find?_eq_none, Bool.and_eq_true, decide_eq_true_eq, Bool.not_eq_true', not_and,
    Bool.not_eq_false]
  exact ⟨fun all e he ho => all e ho he, fun all e ho he => all e he ho⟩

theorem firstRaised_some (c : Condition) : firstRaised raised = some c ↔ c ∈ raised ∧ c ∈ conditionOrder ∧
    ∀ e ∈ raised, e ∈ conditionOrder → conditionOrder.idxOf c ≤ conditionOrder.idxOf e := by
  rw [firstRaised, find?_eq_some_iff_idxOf]
  simp only [decide_eq_true_eq, decide_eq_false_iff_not]
  constructor
  · rintro ⟨order, mem, first⟩
    exact ⟨mem, order, fun e he ho => Nat.not_lt.mp fun lt => first e ho lt he⟩
  · rintro ⟨mem, order, first⟩
    exact ⟨order, mem, fun e ho lt he => absurd (first e he ho) (Nat.not_le.mpr lt)⟩

theorem firstRaised_ne_none {e : Condition} (mem : e ∈ raised) (order : e ∈ conditionOrder) : firstRaised raised ≠ none := by
  intro none
  have := List.find?_eq_none.mp none e order
  simp [mem] at this
end

/-- Settles O19: FAULT reports `firstUnmasked`, DEFAULTED `firstRaised` where there is no unmasked one. -/
theorem outcomeRuleReportsTheFirstCondition : Obligations.OutcomeRuleReportsTheFirstCondition := by
  unfold Obligations.OutcomeRuleReportsTheFirstCondition
  intro raised mask c
  rw [outcomeRule_eq]
  refine ⟨?fault, ?defaulted, fun e mem order => ?reported, rfl⟩
  case fault =>
    rw [← firstUnmasked_some]
    cases firstUnmasked raised mask <;> simp
  case defaulted =>
    have some := firstRaised_some raised c
    have none := firstUnmasked_none raised mask
    cases unmasked : firstUnmasked raised mask with
    | none =>
      have masked := none.mp unmasked
      simp only [Prod.mk.injEq, true_and, some]
      exact ⟨fun ⟨mem, order, first⟩ => ⟨mem, order, masked, first⟩, fun ⟨mem, order, _, first⟩ => ⟨mem, order, first⟩⟩
    | some d =>
      have notMasked : ¬ ∀ e ∈ raised, e ∈ conditionOrder → inSet mask e = true := by
        rw [← none, unmasked]
        simp
      simp [notMasked]
  case reported =>
    have some := firstRaised_ne_none raised mem order
    cases firstUnmasked raised mask with
    | none => exact some
    | some d => simp

end Sys2Proof.Machine
end

section
/-! PROOFS. Chapters 4 and 5, search events: what each writes, counts, raises and answers (R17, R72 to R80, R84 to R88). -/

namespace Sys2Proof.Machine

/-! ### The search event that serves a request (R17, R71) -/

/-- The grant to the Search Engine is the search event of the request it holds. -/
theorem exec_row_of_serves {s : State} {r : Request} {rest : List Request} (serves : s.serves r rest) :
    exec r.question.row s = .next (s.searchEvent r rest (effectOf s r)) := by
  obtain ⟨grant, queue⟩ := serves
  cases question : r.question with
  | lookup learn k length =>
    change execLookupSearchEvent s = _
    simp only [execLookupSearchEvent, grant, queue, question, effectOf, if_true]
  | probe k =>
    change execProbeSearchEvent s = _
    simp only [execProbeSearchEvent, grant, queue, question, effectOf, if_true]
  | touch i gen =>
    change execTouchSearchEvent s = _
    simp only [execTouchSearchEvent, grant, queue, question, effectOf, if_true]

/-- A search event changes the link side, the grant, slots, records and the pulse alone. -/
theorem servedAs_searchEvent (s : State) (r : Request) (rest : List Request) (e : SearchEffect) :
    s.servedAs (s.searchEvent r rest e) rest e.response := by
  unfold State.servedAs
  rw [searchEvent_frame]

theorem searchEvent_record (s : State) (r : Request) (rest : List Request) (e : SearchEffect) :
    (s.searchEvent r rest e).domainAt r.domain.toNat = e.record := by
  rw [searchEvent_domainAt, if_pos ⟨rfl, r.domain.isLt⟩]

theorem searchEvent_otherDomains (s : State) (r : Request) (rest : List Request) (e : SearchEffect) :
    s.otherDomainsKept (s.searchEvent r rest e) r.domain.toNat := by
  intro m _ other
  rw [searchEvent_domainAt, if_neg (fun same => other same.1.symm)]

theorem searchEvent_noSlot {s : State} {r : Request} {rest : List Request} {e : SearchEffect} (slot : e.slot = none) :
    (s.searchEvent r rest e).slots = s.slots := by
  rw [searchEvent_slots, slot]
  rfl

theorem searchEvent_slotAt {s : State} {r : Request} {rest : List Request} {e : SearchEffect} {i : Nat} {x : Slot}
    (slot : e.slot = some (i, x)) (j : Nat) :
    (s.searchEvent r rest e).slotAt j = if i = j ∧ j < 1024 then x else s.slotAt j :=
  slotAt_of_write (by rw [searchEvent_slots, slot]; rfl) j

theorem searchEvent_otherSlots {s : State} {r : Request} {rest : List Request} {e : SearchEffect} {i : Nat} {x : Slot}
    (slot : e.slot = some (i, x)) : s.otherSlotsKept (s.searchEvent r rest e) i := by
  intro j other
  rw [searchEvent_slotAt slot, if_neg (fun same => other same.1.symm)]

/-- A search event that writes no slot and leaves its domain's record changes nothing but the queue, the grant and the answer. -/
theorem searchEvent_unchanged {s : State} {r : Request} {rest : List Request} {e : SearchEffect} (slot : e.slot = none)
    (record : e.record = s.domainOf r) : s.searchEvent r rest e = { s with
      queue := rest, holding := false, searchClaim := false, lastGranted := .search, responses := s.responses ++ [e.response] } := by
  unfold State.searchEvent
  rw [slot, record]
  change s.judgeFrom (({ s.grant .search with queue := rest, holding := false }.setDomain r.domain.toNat
    (({ s.grant .search with queue := rest, holding := false } : State).domainAt r.domain.toNat)).respond e.response) = _
  rw [setDomain_domainAt]
  exact judgeFrom_of_enabledSummary_eq rfl

/-! ### Levels (R28, R30) -/

theorem requestLevel_toNat (linkLevel rpl : BitVec 2) : (requestLevel linkLevel rpl).toNat = max linkLevel.toNat rpl.toNat := by
  unfold requestLevel
  split
  · next below => have := BitVec.le_def.mp below; omega
  · next above => have := mt BitVec.le_def.mpr above; omega

theorem admits_iff (s : State) (r : Request) :
    s.admits r ↔ ¬ (s.domainOf r).desc.lookupLevel < requestLevel s.linkLevel r.rpl := by
  rw [State.admits, BitVec.lt_def, requestLevel_toNat, Nat.not_lt]

/-! ### Answers by the outcome rule (R130) -/

theorem outcomeRule_single {c : Condition} (deciding : c ∈ conditionOrder) (mask : BitVec 8) :
    outcomeRule [c] mask = (if inSet mask c then .defaulted else .fault, some c) := by
  have only : conditionOrder.filter (fun e => decide (e ∈ [c])) = [c] := by
    revert deciding
    cases c <;> decide
  simp only [outcomeRule, only, List.find?_cons, List.find?_nil]
  cases inSet mask c <;> rfl

theorem outcomeRule_full_miss (mask : BitVec 8) : outcomeRule [.full, .miss] mask =
    if inSet mask .full = false then (.fault, some .full)
    else if inSet mask .miss = false then (.fault, some .miss)
    else (.defaulted, some .full) := by
  have both : conditionOrder.filter (fun e => decide (e ∈ [Condition.full, .miss])) = [.full, .miss] := by decide
  simp only [outcomeRule, both, List.find?_cons, List.find?_nil]
  cases inSet mask .full <;> cases inSet mask .miss <;> rfl

/-! ### LOOKUP (R72 to R75, R84 to R88) -/

section
variable {s : State} {r : Request} {learn : Bool} {k : Key} {length : BitVec 16}

theorem lookupEffect_off (out : (s.domainOf r).outOfService = true) :
    lookupEffect s r learn k length = .bare (s.domainOf r) r.tag .off := if_pos out

theorem lookupEffect_denied (service : (s.domainOf r).inService) (above : ¬ s.admits r) : lookupEffect s r learn k length =
    { slot := none, record := (((s.domainOf r).count .lookups).count .denied).raise .denied
      response := ruledResponse r.tag [.denied] (s.domainOf r) none true } := by
  have denied : (s.domainOf r).desc.lookupLevel < requestLevel s.linkLevel r.rpl := by simpa [admits_iff] using above
  simp only [lookupEffect, outOfService_of_inService service, Bool.false_eq_true, if_false, denied, if_true]

/-- A LOOKUP of a domain in service, at or below its level, goes by its search (R72). -/
theorem lookupEffect_searched (service : (s.domainOf r).inService) (admits : s.admits r) : lookupEffect s r learn k length =
    match s.search (s.domainOf r).desc.active k with
    | some i => lookupHit s r.tag length ((s.domainOf r).count .lookups) i
    | none => lookupMiss s r learn k length (requestLevel s.linkLevel r.rpl) ((s.domainOf r).count .lookups) := by
  simp only [lookupEffect, outOfService_of_inService service, Bool.false_eq_true, if_false, (admits_iff s r).mp admits] <;> rfl

/-- A learning attempt, by R84's four conditions. -/
theorem learnAllowed_iff (d : DomainRecord) (learn : Bool) (linkLevel rpl : BitVec 2) :
    learnAllowed d learn (requestLevel linkLevel rpl) = true ↔
      learn = true ∧ d.state = .on ∧ d.desc.learning = true ∧ max linkLevel.toNat rpl.toNat ≤ d.desc.learnLevel.toNat := by
  simp only [learnAllowed, Bool.and_eq_true, decide_eq_true_eq, BitVec.le_def, requestLevel_toNat, and_assoc]

theorem exec_lookup (question : r.question = .lookup learn k length) : exec r.question.row s = exec .lookupSearchEvent s := by
  rw [question]
  rfl

theorem effectOf_lookup (question : r.question = .lookup learn k length) : effectOf s r = lookupEffect s r learn k length := by
  simp only [effectOf, question]
end

/-- What holds after the search event of a LOOKUP whose effect is `e`. -/
theorem lookup_served {s : State} {r : Request} {rest : List Request} {learn : Bool} {k : Key} {length : BitVec 16}
    {e : SearchEffect} (serves : s.serves r rest) (question : r.question = .lookup learn k length)
    (effect : lookupEffect s r learn k length = e) :
    exec .lookupSearchEvent s = .next (s.searchEvent r rest e) := by
  rw [← exec_lookup question, exec_row_of_serves serves, effectOf_lookup question, effect]

/-- The search event with no slot written, by its effect. -/
theorem searched_noSlot {s : State} {r : Request} {rest : List Request} {e : SearchEffect} {o : Out}
    (event : o = .next (s.searchEvent r rest e)) (slot : e.slot = none) {answer : Response} (response : e.response = answer)
    {record : DomainRecord} (written : e.record = record) :
    ∃ t, o = .next t ∧ s.servedAs t rest answer ∧ t.slots = s.slots ∧ t.domainAt r.domain.toNat = record ∧
      s.otherDomainsKept t r.domain.toNat :=
  ⟨_, event, response ▸ servedAs_searchEvent .., searchEvent_noSlot slot, written ▸ searchEvent_record .., searchEvent_otherDomains s r rest e⟩

/-- The search event with one slot written, by its effect. -/
theorem searched_slot {s : State} {r : Request} {rest : List Request} {e : SearchEffect} {o : Out}
    (event : o = .next (s.searchEvent r rest e)) {i : Nat} {x : Slot} (slot : e.slot = some (i, x)) (bound : i < 1024)
    {answer : Response} (response : e.response = answer) {record : DomainRecord} (written : e.record = record) :
    ∃ t, o = .next t ∧ s.servedAs t rest answer ∧ t.slotAt i = x ∧ s.otherSlotsKept t i ∧ t.domainAt r.domain.toNat = record ∧
      s.otherDomainsKept t r.domain.toNat :=
  ⟨_, event, response ▸ servedAs_searchEvent .., by rw [searchEvent_slotAt slot, if_pos ⟨rfl, bound⟩], searchEvent_otherSlots slot,
    written ▸ searchEvent_record .., searchEvent_otherDomains s r rest e⟩

/-- Settles O10: out of service every KIND's effect is the bare OFF answer, which writes nothing. -/
theorem offAtTheGrantChangesNothing : Obligations.OffAtTheGrantChangesNothing := by
  unfold Obligations.OffAtTheGrantChangesNothing
  intro s r rest serves off
  have out := (outOfService_iff _).mpr off
  have effect : effectOf s r = .bare (s.domainOf r) r.tag .off := by
    unfold effectOf
    cases r.question with
    | lookup => exact if_pos out
    | probe => exact if_pos out
    | touch => exact if_pos out
  rw [exec_row_of_serves serves, effect, searchEvent_unchanged rfl rfl]
  rfl

/-- The outcome rule's answer to one condition raised (R130). -/
theorem ruledResponse_single (tag : BitVec 6) {c : Condition} (deciding : c ∈ conditionOrder) (d : DomainRecord) (h : Option Handle)
    (isLookup : Bool) : ruledResponse tag [c] d h isLookup =
      { tag := tag, condition := some c, outcome := if inSet d.desc.mask c then .defaulted else .fault
        handle := if c = .held then h else none
        verdict := if isLookup = true ∧ inSet d.desc.mask c = true then some d.desc.defaultVerdict else none } := by
  simp only [ruledResponse, outcomeRule_single deciding, Option.some.injEq]
  cases inSet d.desc.mask c <;> simp

/-- Settles O11: the level check comes before the search, and its answer is the outcome rule's for DENIED alone. -/
theorem lookupAboveItsLevelIsDenied : Obligations.LookupAboveItsLevelIsDenied := by
  unfold Obligations.LookupAboveItsLevelIsDenied
  intro s r rest learn k length serves question service above
  refine searched_noSlot (lookup_served serves question (lookupEffect_denied service above)) rfl ?_ rfl
  simp [ruledResponse_single r.tag (c := .denied) (by decide)]

theorem lookupHit_found {s : State} {tag : BitVec 6} {length : BitVec 16} {d : DomainRecord} {i : Nat}
    (state : (s.slotAt i).state = .live ∨ (s.slotAt i).state = .provisional) : lookupHit s tag length d i =
      { slot := some (i, (s.slotAt i).countHit d.desc.countStop length)
        record := (d.count .hits).raiseIf (hitWraps d.desc.countStop length (s.slotAt i)) .wrap
        response := slotResponse tag (if (s.slotAt i).state = .live then .hit else .provisional) (s.handleOf i)
          (s.slotAt i).verdict } := by
  obtain live | provisional := state
  · simp only [lookupHit, live, if_true]
  · simp only [lookupHit, provisional, reduceCtorEq, if_false]

theorem lookupHit_held {s : State} {tag : BitVec 6} {length : BitVec 16} {d : DomainRecord} {i : Nat}
    (state : (s.slotAt i).state = .held) : lookupHit s tag length d i =
      { slot := some (i, (s.slotAt i).countHit d.desc.countStop length)
        record := ((d.count .heldHits).raise .held).raiseIf (hitWraps d.desc.countStop length (s.slotAt i)) .wrap
        response := ruledResponse tag [.held] d (some (s.handleOf i)) true } := by
  simp only [lookupHit, state]

/-- A search of a segment in bounds finds a slot of the table. -/
theorem search_bound {s : State} {g : Segment} {k : Key} {i : Nat} (bounds : g.inBounds = true) (found : s.search g k = some i) :
    i < 1024 := has_lt bounds (search_some found).1

/-- Settles O12: the counted hit on a LIVE or PROVISIONAL slot. -/
theorem lookupHitIsCountedAndAnswered : Obligations.LookupHitIsCountedAndAnswered := by
  unfold Obligations.LookupHitIsCountedAndAnswered
  intro s r rest learn k length i serves question service admits bounds found state
  have effect := lookupEffect_searched (learn := learn) (k := k) (length := length) service admits
  rw [found] at effect
  simp only [lookupHit_found state, count_desc] at effect
  exact searched_slot (lookup_served serves question effect) rfl (search_bound bounds found) rfl rfl

/-- Settles O13: the counted hit on a HELD slot, with the outcome rule's answer for HELD. -/
theorem lookupOnHeldRaisesHeld : Obligations.LookupOnHeldRaisesHeld := by
  unfold Obligations.LookupOnHeldRaisesHeld
  intro s r rest learn k length i serves question service admits bounds found state
  have effect := lookupEffect_searched (learn := learn) (k := k) (length := length) service admits
  rw [found] at effect
  simp only [lookupHit_held state, count_desc] at effect
  refine searched_slot (lookup_served serves question effect) rfl (search_bound bounds found) ?_ rfl
  simp [ruledResponse_single r.tag (c := .held) (by decide), State.handleOf]

/-! ### Misses and learning (R75, R84 to R88) -/

theorem lookupMiss_learned {s : State} {r : Request} {learn : Bool} {k : Key} {length : BitVec 16} {level : BitVec 2}
    {d : DomainRecord} {i : Nat} (attempt : learnAllowed d learn level = true) (free : s.firstFree d.desc.active = some i) :
    lookupMiss s r learn k length level d =
      { slot := some (i, learnedRecord (s.slotAt i) r.domain k length d.desc.provVerdict), record := d.count .learned
        response := slotResponse r.tag .learned { slot := i, gen := (s.slotAt i).gen + 1 } d.desc.provVerdict } := by
  simp only [lookupMiss, attempt, if_true, free]
  rfl

theorem lookupMiss_full {s : State} {r : Request} {learn : Bool} {k : Key} {length : BitVec 16} {level : BitVec 2}
    {d : DomainRecord} (attempt : learnAllowed d learn level = true) (full : s.firstFree d.desc.active = none) :
    lookupMiss s r learn k length level d =
      { slot := none, record := ((d.count .misses).raise .full).raise .miss
        response := ruledResponse r.tag [.full, .miss] d none true } := by
  simp only [lookupMiss, attempt, if_true, full]

theorem lookupMiss_plain {s : State} {r : Request} {learn : Bool} {k : Key} {length : BitVec 16} {level : BitVec 2}
    {d : DomainRecord} (noAttempt : ¬ learnAllowed d learn level = true) : lookupMiss s r learn k length level d =
      { slot := none, record := (d.count .misses).raise .miss, response := ruledResponse r.tag [.miss] d none true } :=
  if_neg noAttempt

/-- Counting LOOKUPS does not bear on a learning attempt. -/
theorem learnAllowed_count (d : DomainRecord) (n : Counter) (learn : Bool) (level : BitVec 2) :
    learnAllowed (d.count n) learn level = learnAllowed d learn level := by
  simp only [learnAllowed, count_state, count_desc]

theorem learnedRecord_net (k : Key) : k.net.map (fun a => ({ address := a, pre := fullPrefix a, invert := false } : NetPart)) =
    match k.net with
    | some (.v4 a) => some { address := .v4 a, pre := 32, invert := false }
    | some (.v6 a) => some { address := .v6 a, pre := 128, invert := false }
    | none => none := by
  rcases k.net with _ | (_ | _) <;> rfl

/-- Settles O14: a learning attempt that finds a FREE slot writes `learnedRecord` there. -/
theorem lookupLearnsTheRecordOfTable51 : Obligations.LookupLearnsTheRecordOfTable51 := by
  unfold Obligations.LookupLearnsTheRecordOfTable51
  intro s r rest k length i serves question service admits bounds missed on learning level free
  have effect := lookupEffect_searched (learn := true) (k := k) (length := length) service admits
  have attempt : learnAllowed ((s.domainOf r).count .lookups) true (requestLevel s.linkLevel r.rpl) = true := by
    rw [learnAllowed_count, learnAllowed_iff]
    exact ⟨rfl, on, learning, level⟩
  rw [missed] at effect
  simp only [lookupMiss_learned attempt (by rw [count_desc]; exact free), count_desc, learnedRecord, learnedRecord_net] at effect
  exact searched_slot (lookup_served serves question effect) rfl (has_lt bounds (firstFree_some free).1) rfl rfl

/-- Settles O15: a miss raises FULL only after an attempt, and the outcome rule over what is raised gives R88's table. -/
theorem lookupMissRaisesMissAndFullOnlyAfterAnAttempt : Obligations.LookupMissRaisesMissAndFullOnlyAfterAnAttempt := by
  unfold Obligations.LookupMissRaisesMissAndFullOnlyAfterAnAttempt
  intro s r rest learn k length serves question service admits missed d attempt answer
  have effect := lookupEffect_searched (learn := learn) (k := k) (length := length) service admits
  have attempts : learnAllowed (d.count .lookups) learn (requestLevel s.linkLevel r.rpl) = true ↔ attempt := by
    rw [learnAllowed_count, learnAllowed_iff]
  rw [missed] at effect
  constructor
  · intro noAttempt
    refine searched_noSlot (lookup_served serves question (effect.trans (lookupMiss_plain (mt attempts.mp noAttempt)))) rfl ?_ rfl
    simp only [ruledResponse_single r.tag (c := .miss) (by decide), answer, count_desc, reduceCtorEq, if_false, true_and]
    cases inSet d.desc.mask .miss <;> simp [d]
  · intro made full
    refine searched_noSlot (lookup_served serves question
      (effect.trans (lookupMiss_full (attempts.mpr made) (by rw [count_desc]; exact full)))) rfl ?_ rfl
    simp only [ruledResponse, outcomeRule_full_miss, answer, count_desc]
    cases inSet d.desc.mask .full <;> cases inSet d.desc.mask .miss <;> simp [d]

end Sys2Proof.Machine
end

section
/-! PROOFS. PROBE, TOUCH and the handles that search events answer with (R77 to R80). -/

namespace Sys2Proof.Machine

/-! ### PROBE (R77) -/

section
variable {s : State} {r : Request} {k : Key}

theorem probeEffect_denied (service : (s.domainOf r).inService) (above : ¬ s.admits r) :
    probeEffect s r k = .bare (s.domainOf r) r.tag .noAccess := by
  have denied : (s.domainOf r).desc.lookupLevel < requestLevel s.linkLevel r.rpl := by simpa [admits_iff] using above
  simp only [probeEffect, outOfService_of_inService service, Bool.false_eq_true, if_false, denied, if_true]

theorem probeEffect_searched (service : (s.domainOf r).inService) (admits : s.admits r) : probeEffect s r k =
    match s.search (s.domainOf r).desc.active k with
    | some i =>
      { slot := none, record := s.domainOf r
        response := slotResponse r.tag (probeOutcome (s.slotAt i).state) (s.handleOf i) (s.slotAt i).verdict }
    | none => .bare (s.domainOf r) r.tag .none := by
  simp only [probeEffect, outOfService_of_inService service, Bool.false_eq_true, if_false, (admits_iff s r).mp admits] <;> rfl

/-- A PROBE writes no slot and leaves its domain's record (R77). -/
theorem probeEffect_writes_nothing (s : State) (r : Request) (k : Key) :
    (probeEffect s r k).slot = none ∧ (probeEffect s r k).record = s.domainOf r := by
  simp only [probeEffect]
  split
  · exact ⟨rfl, rfl⟩
  · split
    · exact ⟨rfl, rfl⟩
    · split
      · exact ⟨rfl, rfl⟩
      · exact ⟨rfl, rfl⟩

/-- The search event of a PROBE changes the queue, the grant and the answers sent alone (R77). -/
theorem exec_probe {rest : List Request} (serves : s.serves r rest) (question : r.question = .probe k) {a : Response}
    (answer : (probeEffect s r k).response = a) : exec .probeSearchEvent s = .next { s with
      queue := rest, holding := false, searchClaim := false, lastGranted := .search, responses := s.responses ++ [a] } := by
  have row : exec r.question.row s = exec .probeSearchEvent s := by rw [question]; rfl
  have effect : effectOf s r = probeEffect s r k := by simp only [effectOf, question]
  obtain ⟨slot, record⟩ := probeEffect_writes_nothing s r k
  rw [← row, exec_row_of_serves serves, effect, searchEvent_unchanged slot record, answer]
end

/-- Settles O16: the effect of a PROBE is its answer, by the level check, the search and the state of the match. -/
theorem probeChangesNothing : Obligations.ProbeChangesNothing := by
  unfold Obligations.ProbeChangesNothing
  intro s r rest k serves question service found answered
  refine ⟨fun above => ?_, fun admits missed => ?_, fun i admits matched => ?_⟩
  · exact exec_probe serves question (by rw [probeEffect_denied service above]; rfl)
  · exact exec_probe serves question (by rw [probeEffect_searched service admits, missed]; rfl)
  · have answer : (probeEffect s r k).response =
        slotResponse r.tag (probeOutcome (s.slotAt i).state) (s.handleOf i) (s.slotAt i).verdict := by
      rw [probeEffect_searched service admits, matched]
    refine ⟨fun state => ?_, fun state => ?_, fun state => ?_⟩
    all_goals
      rw [state] at answer
      exact exec_probe serves question answer

/-! ### TOUCH (R78, R79) -/

theorem namesActive_iff (s : State) (d : DomainRecord) (i : Nat) (gen : Byte) : s.namesActive d i gen = true ↔
    d.desc.active.has i = true ∧ (s.slotAt i).state ≠ .free ∧ (s.slotAt i).gen = gen := by
  simp only [State.namesActive, Bool.and_eq_true, decide_eq_true_eq, beq_iff_eq, and_assoc]

section
variable {s : State} {r : Request} {i : BitVec 10} {gen : Byte}

theorem touchEffect_denied (service : (s.domainOf r).inService) (above : ¬ s.admits r) : touchEffect s r i gen =
    { slot := none, record := ((s.domainOf r).count .touches).raise .denied
      response := ruledResponse r.tag [.denied] (s.domainOf r) none false } := by
  have denied : (s.domainOf r).desc.lookupLevel < requestLevel s.linkLevel r.rpl := by simpa [admits_iff] using above
  simp only [touchEffect, outOfService_of_inService service, Bool.false_eq_true, if_false, denied, if_true]

theorem touchEffect_touched (service : (s.domainOf r).inService) (admits : s.admits r)
    (names : s.namesActive (s.domainOf r) i.toNat gen = true) : touchEffect s r i gen =
    { slot := some (i.toNat, (s.slotAt i.toNat).refresh), record := (s.domainOf r).count .touches
      response := { tag := r.tag, outcome := .touched, condition := none, handle := some (s.handleOf i.toNat), verdict := none } } := by
  simp only [touchEffect, outOfService_of_inService service, Bool.false_eq_true, if_false, (admits_iff s r).mp admits, names, if_true]

theorem touchEffect_stale (service : (s.domainOf r).inService) (admits : s.admits r)
    (stale : ¬ s.namesActive (s.domainOf r) i.toNat gen = true) : touchEffect s r i gen =
    { slot := none, record := ((s.domainOf r).count .touches).raise .stale
      response := ruledResponse r.tag [.stale] (s.domainOf r) none false } := by
  simp only [touchEffect, outOfService_of_inService service, Bool.false_eq_true, if_false, (admits_iff s r).mp admits, stale]

theorem exec_touch {rest : List Request} (serves : s.serves r rest) (question : r.question = .touch i gen) {e : SearchEffect}
    (effect : touchEffect s r i gen = e) : exec .touchSearchEvent s = .next (s.searchEvent r rest e) := by
  have row : exec r.question.row s = exec .touchSearchEvent s := by rw [question]; rfl
  have served : effectOf s r = touchEffect s r i gen := by simp only [effectOf, question]
  rw [← row, exec_row_of_serves serves, served, effect]
end

/-- Settles O17: the three effects of a TOUCH in service. -/
theorem touchRefreshesOrRaises : Obligations.TouchRefreshesOrRaises := by
  unfold Obligations.TouchRefreshesOrRaises
  intro s r rest i gen serves question service d names raised
  have named : s.namesActive d i.toNat gen = true ↔ names := namesActive_iff ..
  refine ⟨fun above => ?_, fun admits binding => ?_, fun admits stale => ?_⟩
  · refine searched_noSlot (exec_touch serves question (touchEffect_denied service above)) rfl ?_ rfl
    simp [ruledResponse_single r.tag (c := .denied) (by decide), raised, d]
  · refine searched_slot (exec_touch serves question (touchEffect_touched service admits (named.mpr binding))) rfl i.isLt ?_ rfl
    have gen_eq : (s.slotAt i.toNat).gen = gen := binding.2.2
    rw [State.handleOf, gen_eq]
  · refine searched_noSlot (exec_touch serves question (touchEffect_stale service admits (mt named.mp stale))) rfl ?_ rfl
    simp [ruledResponse_single r.tag (c := .stale) (by decide), raised, d]

/-! ### Handles (R80) -/

/-- Which handle a search event answers with: none, that of a binding of the segment it leaves, or that of the binding it writes. -/
inductive AnswersHandle (s : State) (g : Segment) (e : SearchEffect) : Prop
  | noHandle (handle : e.response.handle = none)
  | kept (i : Nat) (slot : e.slot = none) (handle : e.response.handle = some (s.handleOf i)) (inside : g.has i = true)
      (state : (s.slotAt i).state ≠ .free)
  | written (i : Nat) (x : Slot) (slot : e.slot = some (i, x)) (handle : e.response.handle = some { slot := i, gen := x.gen })
      (inside : g.has i = true) (state : x.state ≠ .free)

theorem ruledResponse_noHandle (tag : BitVec 6) (raised : List Condition) (d : DomainRecord) (isLookup : Bool) :
    (ruledResponse tag raised d none isLookup).handle = none := by
  simp only [ruledResponse, ite_self]

theorem lookupHit_answersHandle {s : State} {g : Segment} {k : Key} {i : Nat} (found : s.search g k = some i) (tag : BitVec 6)
    (length : BitVec 16) (d : DomainRecord) : AnswersHandle s g (lookupHit s tag length d i) := by
  obtain ⟨inside, notFree, _⟩ := search_some found
  cases state : (s.slotAt i).state with
  | free => exact absurd state notFree
  | live =>
    rw [lookupHit_found (.inl state)]
    exact .written i _ rfl rfl inside notFree
  | provisional =>
    rw [lookupHit_found (.inr state)]
    exact .written i _ rfl rfl inside notFree
  | held =>
    rw [lookupHit_held state]
    exact .written i _ rfl (by simp [ruledResponse_single tag (c := .held) (by decide), State.handleOf, Slot.countHit]) inside notFree

theorem lookupMiss_answersHandle (s : State) (r : Request) (learn : Bool) (k : Key) (length : BitVec 16) (level : BitVec 2)
    (d : DomainRecord) : AnswersHandle s d.desc.active (lookupMiss s r learn k length level d) := by
  cases attempt : learnAllowed d learn level with
  | false =>
    rw [lookupMiss_plain (by simp [attempt])]
    exact .noHandle (ruledResponse_noHandle ..)
  | true =>
    cases free : s.firstFree d.desc.active with
    | none =>
      rw [lookupMiss_full attempt free]
      exact .noHandle (ruledResponse_noHandle ..)
    | some i =>
      rw [lookupMiss_learned attempt free]
      exact .written i _ rfl rfl (firstFree_some free).1 (by simp [learnedRecord])

theorem lookupEffect_answersHandle (s : State) (r : Request) (learn : Bool) (k : Key) (length : BitVec 16) :
    AnswersHandle s (s.domainOf r).desc.active (lookupEffect s r learn k length) := by
  by_cases out : (s.domainOf r).outOfService = true
  · rw [lookupEffect_off out]
    exact .noHandle rfl
  have service : (s.domainOf r).inService := (outOfService_false_iff _).mp (by simpa using out)
  by_cases admits : s.admits r
  · rw [lookupEffect_searched service admits]
    cases found : s.search (s.domainOf r).desc.active k with
    | some i => exact lookupHit_answersHandle found ..
    | none =>
      have missed := lookupMiss_answersHandle s r learn k length (requestLevel s.linkLevel r.rpl) ((s.domainOf r).count .lookups)
      rwa [count_desc] at missed
  · rw [lookupEffect_denied service admits]
    exact .noHandle (ruledResponse_noHandle ..)

theorem probeEffect_answersHandle (s : State) (r : Request) (k : Key) :
    AnswersHandle s (s.domainOf r).desc.active (probeEffect s r k) := by
  by_cases out : (s.domainOf r).outOfService = true
  · rw [probeEffect, if_pos out]
    exact .noHandle rfl
  have service : (s.domainOf r).inService := (outOfService_false_iff _).mp (by simpa using out)
  by_cases admits : s.admits r
  · rw [probeEffect_searched service admits]
    cases found : s.search (s.domainOf r).desc.active k with
    | none => exact .noHandle rfl
    | some i =>
      obtain ⟨inside, notFree, _⟩ := search_some found
      exact .kept i rfl rfl inside notFree
  · rw [probeEffect_denied service admits]
    exact .noHandle rfl

theorem touchEffect_answersHandle (s : State) (r : Request) (i : BitVec 10) (gen : Byte) :
    AnswersHandle s (s.domainOf r).desc.active (touchEffect s r i gen) := by
  by_cases out : (s.domainOf r).outOfService = true
  · rw [touchEffect, if_pos out]
    exact .noHandle rfl
  have service : (s.domainOf r).inService := (outOfService_false_iff _).mp (by simpa using out)
  by_cases admits : s.admits r
  · by_cases names : s.namesActive (s.domainOf r) i.toNat gen = true
    · rw [touchEffect_touched service admits names]
      obtain ⟨inside, notFree, _⟩ := (namesActive_iff ..).mp names
      exact .written i.toNat _ rfl rfl inside notFree
    · rw [touchEffect_stale service admits names]
      exact .noHandle (ruledResponse_noHandle ..)
  · rw [touchEffect_denied service admits]
    exact .noHandle (ruledResponse_noHandle ..)

theorem effectOf_answersHandle (s : State) (r : Request) : AnswersHandle s (s.domainOf r).desc.active (effectOf s r) := by
  unfold effectOf
  cases r.question with
  | lookup learn k length => exact lookupEffect_answersHandle s r learn k length
  | probe k => exact probeEffect_answersHandle s r k
  | touch i gen => exact touchEffect_answersHandle s r i gen

/-- Every answer bears its request's tag. -/
theorem effectOf_tag (s : State) (r : Request) : (effectOf s r).response.tag = r.tag := by
  unfold effectOf
  cases r.question with
  | lookup learn k length =>
    simp only [lookupEffect, lookupHit, lookupMiss]
    repeat' split
    all_goals rfl
  | probe k =>
    simp only [probeEffect]
    repeat' split
    all_goals rfl
  | touch i gen =>
    simp only [touchEffect]
    repeat' split
    all_goals rfl

theorem searchEvent_responses (s : State) (r : Request) (rest : List Request) (e : SearchEffect) :
    (s.searchEvent r rest e).responses = s.responses ++ [e.response] := by
  rw [searchEvent_frame]

/-- Settles O18: the three ways a search event's answer can carry a handle, or none (`AnswersHandle`). -/
theorem handlesInResponsesNameBindings : Obligations.HandlesInResponsesNameBindings := by
  unfold Obligations.HandlesInResponsesNameBindings
  intro s t r rest a h serves bounds event sent carried
  rw [exec_row_of_serves serves] at event
  cases event
  have answer : a = (effectOf s r).response := by
    rw [searchEvent_responses] at sent
    simpa using sent.symm
  subst answer
  suffices named : (s.domainOf r).desc.active.has h.slot = true ∧
      ((s.searchEvent r rest (effectOf s r)).slotAt h.slot).state ≠ .free ∧
      ((s.searchEvent r rest (effectOf s r)).slotAt h.slot).gen = h.gen from
    ⟨named.1, named.2.1, named.2.2, effectOf_tag s r⟩
  cases effectOf_answersHandle s r with
  | noHandle handle => rw [handle] at carried; cases carried
  | kept i slot handle inside state =>
    rw [handle] at carried
    cases carried
    rw [slotAt_congr (searchEvent_noSlot slot)]
    exact ⟨inside, state, rfl⟩
  | written i x slot handle inside state =>
    rw [handle] at carried
    cases carried
    rw [searchEvent_slotAt slot, if_pos ⟨rfl, has_lt bounds inside⟩]
    exact ⟨inside, state, rfl⟩

end Sys2Proof.Machine
end

section
/-! PROOFS. The counters: one increment, the binding counters at a hit, and the balance of a domain's counters (R113, R114, R121, R123). -/

namespace Sys2Proof.Machine

/-! ### One increment (R121) -/

@[simp] theorem get_set_same (c : Counters) (v : BitVec 32) (n : Counter) : (c.set v n).get n = v := by cases n <;> rfl

theorem get_set_other (c : Counters) (v : BitVec 32) {n m : Counter} (other : m ≠ n) : (c.set v n).get m = c.get m := by
  cases n <;> cases m <;> trivial

theorem countedValue_toNat (stop : Bool) (v : BitVec 32) : (countedValue stop v).toNat =
    if v.toNat = 2 ^ 32 - 1 then (if stop then 2 ^ 32 - 1 else 0) else v.toNat + 1 := by
  unfold countedValue top32
  split
  · next top => cases stop <;> simp [top]
  · next below =>
    have bound := v.isLt
    have one : (1 : BitVec 32).toNat = 1 := rfl
    rw [BitVec.toNat_add, one, Nat.mod_eq_of_lt (by omega)]

theorem countWraps_iff (stop : Bool) (v : BitVec 32) :
    countWraps stop v = true ↔ v.toNat = 2 ^ 32 - 2 ∨ (v.toNat = 2 ^ 32 - 1 ∧ stop = true) := by
  unfold countWraps top32
  split
  · next top => simp [top]
  · next below => simp only [beq_iff_eq, below, false_and, or_false]; omega

theorem countHalves_iff (v : BitVec 32) : countHalves v = true ↔ v.toNat = 2 ^ 31 - 1 := by
  simp only [countHalves, beq_iff_eq]; omega

theorem count_sticky (d : DomainRecord) (n : Counter) : (d.count n).sticky = d.sticky |||
    (if countHalves (d.counters.get n) then Condition.half.bit else 0) |||
    (if countWraps d.desc.countStop (d.counters.get n) then Condition.wrap.bit else 0) := by
  simp only [DomainRecord.count, raiseIf_sticky]

/-! ### OCTETS at a hit (R114) -/

theorem octetsAfter_toNat (stop : Bool) (v : BitVec 40) (length : BitVec 16) : (octetsAfter stop v length).toNat =
    if v.toNat + length.toNat < 2 ^ 40 - 1 then v.toNat + length.toNat
    else if stop then 2 ^ 40 - 1 else (v.toNat + length.toNat) % 2 ^ 40 := by
  unfold octetsAfter top40
  split
  · next below => simp only [BitVec.toNat_ofNat]; omega
  · cases stop <;> simp

theorem hitWraps_iff (stop : Bool) (length : BitVec 16) (r : Slot) : hitWraps stop length r = true ↔
    (r.frames.toNat = 2 ^ 32 - 2 ∨ (r.frames.toNat = 2 ^ 32 - 1 ∧ stop = true)) ∨
      2 ^ 40 - 1 ≤ r.octets.toNat + length.toNat := by
  rw [hitWraps, Bool.or_eq_true, countWraps_iff, octetsWrap, decide_eq_true_eq]

/-- Settles O20: one increment by its value, HALF and WRAP; FRAMES and OCTETS by theirs. -/
theorem countersIncrementAndRaise : Obligations.CountersIncrementAndRaise := by
  unfold Obligations.CountersIncrementAndRaise
  refine ⟨fun d n => ⟨?value, ?sticky, ?others, count_desc .., count_state .., count_cursor .., count_restoring ..⟩,
    fun stop length r => ⟨countedValue_toNat stop r.frames, octetsAfter_toNat stop r.octets length, ?wraps⟩⟩
  case value => rw [count_counters, get_set_same, countedValue_toNat]
  case sticky =>
    rw [count_sticky]
    simp only [countHalves_iff, countWraps_iff]
    rfl
  case others => exact fun m other => by rw [count_counters, get_set_other _ _ other]
  case wraps => rw [hitWraps_iff, or_assoc]

/-! ### The balance (R123) -/

theorem countedValue_below {v : BitVec 32} (below : v.toNat < top32) (stop : Bool) :
    (countedValue stop v).toNat = v.toNat + 1 := by
  rw [countedValue_toNat, if_neg (by unfold top32 at below; omega)]

/-- A search event counts a LOOKUP with the one of the five that says how it ended, or no counter of the six. -/
theorem RecordServed.balanced {d e : DomainRecord} (served : RecordServed d e) (balance : d.counters.balanced)
    (below : d.counters.belowTop) : e.counters.balanced := by
  obtain ⟨lookups, hits, heldHits, misses, denied, learned⟩ := below
  unfold Counters.balanced at balance
  cases served <;>
    simp only [Counters.balanced, raise_counters, raiseIf_counters, count_counters, count_desc, Counters.set, Counters.get,
      countedValue_below, lookups, hits, heldHits, misses, denied, learned] <;> omega

/-- AGED does not bear on the balance. -/
theorem balanced_aged (d : DomainRecord) : ((d.count .aged).raise .aged).counters.balanced ↔ d.counters.balanced := by
  simp only [raise_counters, count_counters, Counters.balanced, Counters.set]

/-- An event that leaves a domain's counters leaves their balance. -/
theorem balanced_of_counters {d e : DomainRecord} (balance : d.counters.balanced) (same : e.counters = d.counters) :
    e.counters.balanced := same ▸ balance

theorem Stepped.balanced {s t : State} {k i n : Nat} (stepped : Stepped s k i t) (balance : (s.domainAt n).counters.balanced) :
    (t.domainAt n).counters.balanced := by
  cases stepped with
  | still => exact balance
  | aged => rwa [domainAt_setSlot]
  | retired =>
    rw [domainAt_setDomain]
    split
    · next same => rw [balanced_aged, same.1]; exact balance
    · rwa [domainAt_setSlot]

theorem PassedOn.counters {g t : State} {f : InFlight} (passed : PassedOn g f t) (n : Nat) :
    (t.domainAt n).counters = (g.domainAt n).counters := by
  cases passed with
  | ended =>
    rw [domainAt_passDone]
    split
    · next same => rw [← same.1]
    · rfl
  | next => exact congrArg _ (domainAt_congr rfl n)

theorem visitSlot_counters (s : State) (sweep : Bool) (f : InFlight) (o v x n : Nat) :
    ((s.visitSlot sweep f o v x).domainAt n).counters = (s.domainAt n).counters := by
  obtain ⟨g, granted, passed⟩ := visitSlot_passedOn s sweep f o v x
  rw [passed.counters]
  obtain rfl | ⟨i, rfl⟩ := granted
  · rw [domainAt_grant]
  · rw [domainAt_setSlot, domainAt_grant]

/-- A completion that loads no counters leaves them or sets them to 0. -/
theorem CompletedAs.balanced {s : State} {f : InFlight} {k : Command} {d : DomainRecord} (completed : CompletedAs s f k d)
    (balance : (s.domainAt f.domain.toNat).counters.balanced)
    (noPreset : k = .counters → flag0 f.flags = false → flag1 f.flags = false) : d.counters.balanced := by
  cases completed with
  | exchange | setState | clearConditions | kept | load | pass => exact balance
  | reinit => exact rfl
  | counters =>
    unfold DomainRecord.setCounters
    split
    · exact rfl
    · next flag => rwa [noPreset rfl (by simpa using flag), if_neg Bool.false_ne_true]

theorem Shape.keeps_balance {s t : State} {c : Instr} {n : Nat} (shape : Shape s c t)
    (balance : (s.domainAt n).counters.balanced) (below : (s.domainAt n).counters.belowTop) (noRestore : c ≠ .restoreCompletion)
    (noPreset : ∀ f, c = .commandCompletion → s.engine = .busy f → f.command = some .counters → flag0 f.flags = false →
      flag1 f.flags = false) : (t.domainAt n).counters.balanced := by
  cases shape with
  | fullReset => exact balanced_of_counters (d := .reset) rfl (congrArg DomainRecord.counters (domainAt_fullReset s n))
  | searched r rest grant queue =>
    rw [searchEvent_domainAt]
    split
    · next same =>
      rw [← same.1] at balance below
      exact (effectOf_record s r).balanced balance below
    · exact balance
  | walked w grant walk =>
    rw [domainAt_judgeFrom, domainAt_congr (walked_table s w).2]
    exact (stepSlot_stepped ..).balanced (by rwa [domainAt_grant])
  | taken k o idle level =>
    rw [take_domainAt]
    split
    · exact balance
    · exact balance
  | slotGranted k f grant busy command progress uses =>
    obtain ⟨_, _, e⟩ | ⟨_, _, e⟩ := slotCommand_cases s k f <;> rw [e] <;> exact balance
  | visited sweep f o v x grant busy command progress => rwa [visitSlot_counters]
  | strandedRestore f i grant busy command progress =>
    rw [domainAt_judgeFrom, domainAt_complete, domainAt_setDomain]
    split
    · next same => rw [same.1]; exact balance
    · rwa [domainAt_grant]
  | completed f k t busy command progress effect =>
    obtain ⟨d, r, snapshot, pulse, completed, _, rfl⟩ := completionOf_some effect
    rw [domainAt_of_write (s := s) rfl]
    split
    · next same =>
      rw [← same.1] at balance
      exact completed.balanced balance fun counters => noPreset f rfl busy (counters ▸ command)
    · exact balance
  | restored => exact absurd rfl noRestore
  | examined | strandedDescriptor | refusalCompleted | same | cleared | released | linkAssert | linkRelease | notReady | turnedAway
  | admitted | headOff | headHeld | ticked | overran | walkStarted | refusedInInit | refusedBusy | pulseEnded | controlWritten
  | ageStepWritten | conditionsWritten | maskWritten | framed | windowWritten =>
    exact balanced_of_counters balance (congrArg _ (domainAt_congr (by simp) n))

/-- Settles O21: a LOOKUP counts LOOKUPS and one of the five, each below its top; the other events leave the counters or zero them. -/
theorem countersStayInBalance : Obligations.CountersStayInBalance := by
  unfold Obligations.CountersStayInBalance
  intro c s t n _ event balance below noRestore noPreset
  exact (exec_shape event).keeps_balance balance below noRestore noPreset

end Sys2Proof.Machine
end

section
/-! PROOFS. The Table Arbiter: the order of the grants, and which events change LAST_GRANTED (R16, R18, R19, R21). -/

namespace Sys2Proof.Machine

/-! ### What every next state of a row has -/

/-- Every next state that an outcome answers has a property. -/
def Yields (P : State → Prop) (o : Out) : Prop := ∀ t, o = .next t → P t

theorem Yields.next {P : State → Prop} {t : State} (holds : P t) : Yields P (.next t) := by
  rintro _ ⟨⟩
  exact holds

theorem Yields.fault {P : State → Prop} (r : Fault) : Yields P (.fault r) := by
  rintro _ ⟨⟩

theorem Yields.stray {P : State → Prop} {s : State} (holds : P s) : Yields P (strayByte s) := by
  intro t next
  obtain ⟨rfl, _⟩ := strayByte_next next
  exact holds

/-- The byte of a frame's kind at which its row acts (R176). -/
theorem Yields.inFrame {P : State → Prop} {s : State} {k : FrameKind} {o : Out} (acts : Yields P o) (ignored : P s) :
    Yields P (s.inFrame k o) := by
  intro t next
  obtain ⟨_, next⟩ | ⟨_, rfl⟩ := inFrame_next next
  · exact acts t next
  · exact ignored

theorem Yields.ite {P : State → Prop} {p : Prop} [Decidable p] {a b : Out} (yes : p → Yields P a) (no : ¬ p → Yields P b) :
    Yields P (if p then a else b) := by
  split
  · next h => exact yes h
  · next h => exact no h

/-! ### Grants -/

/-- A next state is that of a grant to one requester: the grant order gave it, and it became LAST_GRANTED. -/
def State.grantedTo (s : State) (q : Requester) (t : State) : Prop := s.nextGrant = some q ∧ t.lastGranted = q

theorem searchEvent_lastGranted (s : State) (r : Request) (rest : List Request) (e : SearchEffect) :
    (s.searchEvent r rest e).lastGranted = .search := by
  rw [searchEvent_frame]

theorem PassedOn.lastGranted {g t : State} {f : InFlight} (passed : PassedOn g f t) : t.lastGranted = g.lastGranted := by
  cases passed <;> rfl

theorem visitSlot_lastGranted (s : State) (sweep : Bool) (f : InFlight) (o v x : Nat) :
    (s.visitSlot sweep f o v x).lastGranted = .command := by
  obtain ⟨g, granted, passed⟩ := visitSlot_passedOn s sweep f o v x
  obtain rfl | ⟨i, rfl⟩ := granted <;> exact passed.lastGranted

theorem walked_lastGranted (s : State) (w : Walk) : (s.walked w).lastGranted = .ageing := by
  rw [walked_frame]

theorem slotCommand_lastGranted (s : State) (c : Command) (f : InFlight) : (s.slotCommand c f).lastGranted = .command := by
  obtain ⟨_, _, e⟩ | ⟨_, _, e⟩ := slotCommand_cases s c f <;> rw [e] <;> rfl

section
variable (s : State)

theorem execLookupSearchEvent_granted : Yields (s.grantedTo .search) (execLookupSearchEvent s) := by
  refine .ite (fun grant => ?_) fun _ => .fault _
  split
  · exact .fault _
  · split
    · exact .next ⟨grant, searchEvent_lastGranted ..⟩
    · exact .fault _
    · exact .fault _

theorem execProbeSearchEvent_granted : Yields (s.grantedTo .search) (execProbeSearchEvent s) := by
  refine .ite (fun grant => ?_) fun _ => .fault _
  split
  · exact .fault _
  · split
    · exact .next ⟨grant, searchEvent_lastGranted ..⟩
    · exact .fault _
    · exact .fault _

theorem execTouchSearchEvent_granted : Yields (s.grantedTo .search) (execTouchSearchEvent s) := by
  refine .ite (fun grant => ?_) fun _ => .fault _
  split
  · exact .fault _
  · split
    · exact .next ⟨grant, searchEvent_lastGranted ..⟩
    · exact .fault _
    · exact .fault _

theorem execWalkStep_granted : Yields (s.grantedTo .ageing) (execWalkStep s) := by
  refine .ite (fun grant => ?_) fun _ => .fault _
  split
  · exact .fault _
  · exact .next ⟨grant, (judgeFrom_lastGranted ..).trans (walked_lastGranted s _)⟩

theorem execCommandGrant_granted : Yields (s.grantedTo .command) (execCommandGrant s) := by
  refine .ite (fun grant => ?_) fun _ => .fault _
  split
  · split
    · exact .ite (fun _ => .next ⟨grant, slotCommand_lastGranted ..⟩) fun _ => .fault _
    · exact .fault _
  · exact .fault _
  · exact .fault _

theorem execPassVisit_granted : Yields (s.grantedTo .command) (execPassVisit s) := by
  refine .ite (fun grant => ?_) fun _ => .fault _
  split
  · split
    · exact .next ⟨grant, visitSlot_lastGranted ..⟩
    · exact .next ⟨grant, visitSlot_lastGranted ..⟩
    · exact .fault _
  · exact .fault _
  · exact .fault _

theorem execDescriptorExaminationGrant_granted : Yields (s.grantedTo .command) (execDescriptorExaminationGrant s) := by
  refine .ite (fun grant => ?_) fun _ => .fault _
  split
  · split
    · exact .ite (fun _ => .next ⟨grant, by simp⟩) fun _ => .next ⟨grant, by simp⟩
    · exact .fault _
  · exact .fault _
  · exact .fault _

theorem execRestoreExaminationGrant_granted : Yields (s.grantedTo .command) (execRestoreExaminationGrant s) := by
  refine .ite (fun grant => ?_) fun _ => .fault _
  split
  · split
    · exact .ite (fun _ => .next ⟨grant, by simp⟩) fun _ => .next ⟨grant, by simp⟩
    · exact .fault _
  · exact .fault _
  · exact .fault _

/-! ### Events that are no grant -/

/-- A next state with the LAST_GRANTED of the state before. -/
def State.grantKept (t : State) : Prop := t.lastGranted = s.lastGranted

theorem execTableClearingCompletion_grantKept : Yields s.grantKept (execTableClearingCompletion s) :=
  .ite (fun _ => .next (judgeFrom_lastGranted ..)) fun _ => .fault _

theorem execRequestArrival_grantKept (v : RequestWords) : Yields s.grantKept (execRequestArrival v s) := by
  refine .ite (fun _ => .next rfl) fun _ => .ite (fun _ => .next rfl) fun _ => .ite (fun _ => .next ?_) fun _ =>
    .ite (fun _ => .next ?_) fun _ => .next rfl
  · exact raiseDevice_lastGranted ..
  · exact raiseDevice_lastGranted ..

theorem execTakeHead_grantKept : Yields s.grantKept (execTakeHead s) := by
  refine .ite (fun _ => .fault _) fun _ => ?_
  split
  · exact .fault _
  · exact .ite (fun _ => .next rfl) fun _ => .next rfl

theorem execAgeTimerExpiry_grantKept : Yields s.grantKept (execAgeTimerExpiry s) := by
  unfold execAgeTimerExpiry
  split
  · exact .fault _
  · exact .ite (fun _ => .next rfl) fun _ => .next (raiseDevice_lastGranted ..)

theorem execWalkStart_grantKept : Yields s.grantKept (execWalkStart s) := .ite (fun _ => .next rfl) fun _ => .fault _

/-- A COMMAND frame that is no permitted RESET. -/
theorem commandFrame_grantKept {c : Option Command} (o : Operands) (noReset : c ≠ some .reset) :
    Yields s.grantKept (commandFrame c o s) := by
  refine .inFrame (.next ?_) rfl
  unfold State.deliver
  split
  · exact rfl
  · exact rfl
  · rw [if_neg fun permitted => noReset permitted.1, take_frame]
    exact rfl

theorem execCommandCompletion_grantKept : Yields s.grantKept (execCommandCompletion s) := by
  unfold execCommandCompletion
  split
  · split
    · exact .next rfl
    · split
      · next completed =>
        obtain ⟨_, _, _, _, _, _, rfl⟩ := completionOf_some completed
        exact .next rfl
      · exact .fault _
    · exact .fault _
  · exact .fault _
  · exact .fault _

theorem execRestoreCompletion_grantKept : Yields s.grantKept (execRestoreCompletion s) := by
  unfold execRestoreCompletion
  split
  · split
    · exact .next (domainDone_lastGranted ..)
    · exact .fault _
  · exact .fault _
  · exact .fault _

theorem execAttnPulseEnd_grantKept : Yields s.grantKept (execAttnPulseEnd s) := .ite (fun _ => .next rfl) fun _ => .fault _

theorem registerWrite_grantKept {effect : State → State} (kept : (effect s).lastGranted = s.lastGranted) :
    Yields s.grantKept (registerWrite effect s) := by
  intro t next
  obtain ⟨_, rfl⟩ | ⟨_, rfl⟩ | rfl := registerWrite_next next
  · exact rfl
  · exact kept
  · exact rfl

theorem writeRegister_lastGranted (a : Byte) (d : Word) : (s.writeRegister a d).lastGranted = s.lastGranted := by
  obtain e | e | e | e | e := writeRegister_cases a d s <;> rw [e] <;> simp

theorem execStatusRead_grantKept (e : RegReadEvent) : Yields s.grantKept (execStatusRead e s) := by
  cases e with
  | address a => exact .inFrame (.next rfl) rfl
  | sent =>
    simp only [execStatusRead]
    split
    · exact .next (clearFrameErrorIf_lastGranted ..)
    · exact .stray rfl

theorem execWindowRead_grantKept (e : WindowReadEvent) : Yields s.grantKept (execWindowRead e s) := by
  cases e with
  | header w start => exact .inFrame (.next rfl) rfl
  | word =>
    simp only [execWindowRead]
    split
    · exact .next rfl
    · exact .stray rfl

theorem execWindowWrite_grantKept (e : WindowWriteEvent) : Yields s.grantKept (execWindowWrite e s) := by
  cases e with
  | header w start => exact .inFrame (.next rfl) rfl
  | word data =>
    simp only [execWindowWrite]
    split
    · exact .ite (fun _ => .next (writeWindow_lastGranted ..)) fun _ => .next rfl
    · exact .stray rfl

theorem execSummary_grantKept (e : SummaryEvent) : Yields s.grantKept (execSummary e s) := by
  cases e with
  | code => exact .ite (fun _ => .next rfl) fun _ => .stray rfl
  | word =>
    simp only [execSummary]
    split
    · exact .next (clearFrameErrorIf_lastGranted ..)
    · exact .stray rfl

theorem judgeCode_lastGranted (c : Byte) : (s.judgeCode c).lastGranted = s.lastGranted := by
  unfold State.judgeCode
  split <;> rfl

theorem execFrameError_grantKept (e : FrameOpening) : Yields s.grantKept (execFrameError e s) := by
  cases e with
  | fall => exact .next rfl
  | code c => exact .ite (fun _ => .next (judgeCode_lastGranted s c)) fun _ => .stray rfl
end

/-! ### The cycle (R16) -/

/-- The grant order is the cycle Search, Command, Ageing from the requester after the last granted one (Table 1-4). -/
theorem nextGrant_eq (s : State) : s.nextGrant = match s.lastGranted with
    | .search => if s.commandClaim then some .command else if s.ageingClaim then some .ageing
        else if s.searchClaim then some .search else none
    | .command => if s.ageingClaim then some .ageing else if s.searchClaim then some .search
        else if s.commandClaim then some .command else none
    | .ageing => if s.searchClaim then some .search else if s.commandClaim then some .command
        else if s.ageingClaim then some .ageing else none := by
  cases last : s.lastGranted <;>
    simp only [State.nextGrant, grantOrder, last, List.find?_cons, List.find?_nil, State.claims] <;>
    cases s.searchClaim <;> cases s.commandClaim <;> cases s.ageingClaim <;> rfl

/-- Settles O22: the cycle by the claims that wait, and each row by its own outcomes. -/
theorem grantsFollowTheCycle : Obligations.GrantsFollowTheCycle := by
  unfold Obligations.GrantsFollowTheCycle
  refine ⟨fun s => ?cycle, fun c s t event => ⟨fun search => ?search, fun command => ?command, ?ageing, fun moved => ?moved⟩⟩
  case cycle =>
    rw [nextGrant_eq]
    cases s.lastGranted <;> cases s.searchClaim <;> cases s.commandClaim <;> cases s.ageingClaim <;> decide
  case search =>
    fin_cases search
    · exact execLookupSearchEvent_granted s t event
    · exact execProbeSearchEvent_granted s t event
    · exact execTouchSearchEvent_granted s t event
  case command =>
    fin_cases command
    · exact execCommandGrant_granted s t event
    · exact execPassVisit_granted s t event
    · exact execDescriptorExaminationGrant_granted s t event
    · exact execRestoreExaminationGrant_granted s t event
  case ageing =>
    rintro rfl
    exact execWalkStep_granted s t event
  case moved =>
    cases c with
    | lookupSearchEvent | probeSearchEvent | touchSearchEvent | commandGrant | passVisit | descriptorExaminationGrant
    | restoreExaminationGrant | walkStep | powerOn | resetNAssert => exact .inl (by decide)
    | reset o => exact .inr (.inl ⟨o, rfl⟩)
    | unknownCommand w o => exact .inr (.inr ⟨w, o, rfl⟩)
    | resetNRelease | linkResetAssert | linkResetRelease | frameEnd => cases event; exact absurd rfl moved
    | tableClearingCompletion => exact absurd (execTableClearingCompletion_grantKept s t event) moved
    | requestArrival v => exact absurd (execRequestArrival_grantKept s v t event) moved
    | takeHead => exact absurd (execTakeHead_grantKept s t event) moved
    | ageTimerExpiry => exact absurd (execAgeTimerExpiry_grantKept s t event) moved
    | walkStart => exact absurd (execWalkStart_grantKept s t event) moved
    | writeSlot o | setVerdict o | hold o | release o | confirm o | pin o | unpin o | retire o | readSlot o | scan o | sweep o
    | setDescriptor o | exchange o | setState o | snapshot o | restore o | counters o | clearConditions o =>
      exact absurd (commandFrame_grantKept s o (by decide) t event) moved
    | commandCompletion => exact absurd (execCommandCompletion_grantKept s t event) moved
    | restoreCompletion => exact absurd (execRestoreCompletion_grantKept s t event) moved
    | attnPulseEnd => exact absurd (execAttnPulseEnd_grantKept s t event) moved
    | controlWrite d => exact absurd (registerWrite_grantKept s (writeControl_lastGranted s d) t event) moved
    | ageStepWrite d => exact absurd (registerWrite_grantKept s (writeAgeStep_lastGranted s d) t event) moved
    | deviceConditionsWrite d => exact absurd (registerWrite_grantKept s (writeDeviceConditions_lastGranted s d) t event) moved
    | deviceMaskWrite d => exact absurd (registerWrite_grantKept s (writeDeviceMask_lastGranted s d) t event) moved
    | regWrite a d => exact absurd (registerWrite_grantKept s (writeRegister_lastGranted s a d) t event) moved
    | statusRead e => exact absurd (execStatusRead_grantKept s e t event) moved
    | windowRead e => exact absurd (execWindowRead_grantKept s e t event) moved
    | windowWrite e => exact absurd (execWindowWrite_grantKept s e t event) moved
    | summary e => exact absurd (execSummary_grantKept s e t event) moved
    | frameError e => exact absurd (execFrameError_grantKept s e t event) moved

end Sys2Proof.Machine
end

section
/-! PROOFS. COMMAND frames: their refusal in INIT and BUSY, the take, and the checks made at it (R145, R146, R151, R152, R188). -/

namespace Sys2Proof.Machine

/-! ### The frame -/

theorem exec_ofCommand (o : Operands) (c : Command) (s : State) : exec (.ofCommand o c) s = commandFrame (some c) o s := by
  cases c <;> rfl

theorem exec_unknownCommand (w : Byte) (o : Operands) (s : State) :
    exec (.unknownCommand w o) s = commandFrame (commandOfOpcode w) o s := rfl

theorem commandFrame_opened {s : State} (opened : s.frame = .opened .command) (c : Option Command) (o : Operands) :
    commandFrame c o s = .next (s.deliver c o) := by
  rw [commandFrame, inFrame_opened opened]

/-- The last operand byte of a frame is, in IDLE, its take, but for a permitted RESET (R145, R161). -/
theorem commandFrame_taken {s : State} (ready : s.readyToTake) {c : Option Command} {o : Operands}
    (notPermitted : c = some .reset → o.rpl ≠ 0) : commandFrame c o s = .next (s.take c o) := by
  obtain ⟨idle, opened⟩ := ready
  have taken : ¬ (c = some .reset ∧ commandLevel o.rpl = 0) := fun ⟨reset, level⟩ =>
    notPermitted reset ((commandLevel_eq_zero_iff o.rpl).mp level)
  rw [commandFrame_opened opened, State.deliver, idle]
  simp only [taken, if_false]

/-- Settles O26: every COMMAND frame is delivered the same way, and INIT and BUSY refuse it before its operands are read. -/
theorem commandFramesAreRefusedInInitAndBusy : Obligations.CommandFramesAreRefusedInInitAndBusy := by
  unfold Obligations.CommandFramesAreRefusedInInitAndBusy
  intro o s i frame
  have delivered : ∃ c, exec i s = commandFrame c o s := by
    obtain ⟨c, rfl⟩ | ⟨w, rfl⟩ := frame
    · exact ⟨_, exec_ofCommand o c s⟩
    · exact ⟨_, exec_unknownCommand w o s⟩
  obtain ⟨c, delivered⟩ := delivered
  rw [delivered]
  refine ⟨fun opened init => ?_, fun f opened busy => ?_, fun ignoring => inFrame_ignoring ignoring⟩
  · rw [commandFrame_opened opened, State.deliver, (inInit_iff s).mp init]
  · rw [commandFrame_opened opened, State.deliver, busy]

/-! ### The take checks, in order (R151) -/

section
variable {s : State} {o : Operands} {c : Command}

theorem takeCheck_reset (level : o.rpl ≠ 0) : s.takeCheck o (some .reset) = some .denied :=
  if_neg (mt (commandLevel_eq_zero_iff o.rpl).mp level)

theorem takeCheck_badSlot (uses : c ∈ slotCommands) (slot : 1023 < o.slot.toNat) : s.takeCheck o (some c) = some .badSlot := by
  have notReset : c ≠ .reset := by rintro rfl; exact absurd uses (by decide)
  rw [takeCheck_of_ne_reset s o notReset, if_pos ⟨(usesSlot_iff c).mpr uses, slot⟩]

theorem slotCheck_passes (slot : c ∉ slotCommands ∨ o.slot.toNat ≤ 1023) : ¬ (usesSlot c = true ∧ 1023 < o.slot.toNat) := by
  rintro ⟨uses, above⟩
  obtain other | inTable := slot
  · exact other ((usesSlot_iff c).mp uses)
  · omega

theorem takeCheck_domain (notReset : c ≠ .reset) (slot : c ∉ slotCommands ∨ o.slot.toNat ≤ 1023) (domain : 15 < o.domain.toNat) :
    s.takeCheck o (some c) = some .denied := by
  rw [takeCheck_of_ne_reset s o notReset, if_neg (slotCheck_passes slot), if_pos domain]

theorem needs_lt_level_iff : levelNeeded (s.domainAt o.domain.toNat) c < commandLevel o.rpl ↔
    (s.domainAt o.domain.toNat).desc.needs c < min o.rpl.toNat 3 := by
  rw [BitVec.lt_def, levelNeeded_toNat, commandLevel_toNat]

theorem takeCheck_level (notReset : c ≠ .reset) (slot : c ∉ slotCommands ∨ o.slot.toNat ≤ 1023)
    (level : (s.domainAt o.domain.toNat).desc.needs c < min o.rpl.toNat 3) : s.takeCheck o (some c) = some .denied := by
  rw [takeCheck_of_ne_reset s o notReset, if_neg (slotCheck_passes slot), if_pos (needs_lt_level_iff.mpr level), ite_self]

theorem takeCheck_passed (notReset : c ≠ .reset) (slot : c ∉ slotCommands ∨ o.slot.toNat ≤ 1023) (domain : o.domain.toNat ≤ 15)
    (level : min o.rpl.toNat 3 ≤ (s.domainAt o.domain.toNat).desc.needs c) : s.takeCheck o (some c) = none := by
  rw [takeCheck_of_ne_reset s o notReset, if_neg (slotCheck_passes slot), if_neg (Nat.not_lt.mpr domain),
    if_neg (mt needs_lt_level_iff.mp (Nat.not_lt.mpr level))]

/-- A command refused at its take is BUSY without a claim, and changes nothing else (R151). -/
theorem take_refused {c : Option Command} {code : ResultCode} (refused : s.takeCheck o c = some code) : s.take c o = { s with
    engine := .busy (s.inFlight c o), refused := false, frame := .ignoring, commandClaim := false } := by
  have progress := inFlight_progress_of_refused refused
  obtain ⟨_, e⟩ | ⟨_, passed, _⟩ := take_cases s c o
  · rw [e, progress]; rfl
  · rw [progress] at passed; cases passed

/-- After the take checks a command is refused for its staging copy, its value or its cursor alone. -/
theorem startOf_refused {staged : Staged} {code : ResultCode} (refused : s.startOf o staged c = .refused code) :
    code = .badRecord ∨ code = .staleCursor ∨ code = .overlap := by
  have examined {d e : Descriptor} {m : Nat} : examineFrom d e m ≠ .refused code := by
    obtain ⟨_, e, _⟩ | ⟨e, _⟩ := examineFrom_cases d e m <;> rw [e] <;> exact nofun
  cases c with
  | writeSlot | setVerdict | hold | release | confirm | pin | unpin | retire | readSlot | exchange | snapshot | counters
  | clearConditions | reset => cases refused
  | scan | sweep =>
    simp only [State.startOf, passStart] at refused
    repeat' split at refused
    all_goals cases refused
    · exact .inl rfl
    · exact .inr (.inl rfl)
    · exact .inr (.inl rfl)
  | setDescriptor =>
    simp only [State.startOf, State.descriptorStart] at refused
    repeat' split at refused
    · cases refused; exact .inl rfl
    · cases refused; exact .inr (.inr rfl)
    · exact absurd refused examined
  | restore =>
    simp only [State.startOf, State.restoreStart] at refused
    repeat' split at refused
    · cases refused; exact .inl rfl
    · cases refused; exact .inr (.inr rfl)
    · exact absurd refused examined
  | setState =>
    simp only [State.startOf] at refused
    split at refused
    · cases refused
    · cases refused; exact .inl rfl
end

/-- Settles O28: the checks of `takeCheck` one after the other, and what a refusal leaves. -/
theorem takeChecksRefuseInOrder : Obligations.TakeChecksRefuseInOrder := by
  unfold Obligations.TakeChecksRefuseInOrder
  intro o s ready d level ends
  have refused {i : Instr} {c : Option Command} {code : ResultCode} (row : exec i s = commandFrame c o s)
      (notPermitted : c = some .reset → o.rpl ≠ 0) (check : s.takeCheck o c = some code) : ends i code :=
    ⟨_, s.inFlight c o, row.trans (commandFrame_taken ready notPermitted), take_engine .., inFlight_progress_of_refused check,
      take_refused check⟩
  have named {c : Command} {code : ResultCode} (notReset : c ≠ .reset) (check : s.takeCheck o (some c) = some code) :
      ends (.ofCommand o c) code :=
    refused (exec_ofCommand o c s) (fun reset => absurd (Option.some.inj reset) notReset) check
  refine ⟨fun w unknown => ?unknown, fun level => ?reset, fun c uses slot => ?badSlot,
    fun c notReset slot => ⟨fun domain => ?domain, fun _ => ⟨fun reads above => ?reads, fun edits above => ?edits,
      fun zero above => ?zero⟩⟩, fun c notReset slot domain permitted => ?passed⟩
  case unknown => exact refused (c := none) (by rw [exec_unknownCommand, unknown]) nofun rfl
  case reset => exact refused (c := some .reset) rfl (fun _ => level) (takeCheck_reset level)
  case badSlot => exact named (by rintro rfl; exact absurd uses (by decide)) (takeCheck_badSlot uses slot)
  case domain => exact named notReset (takeCheck_domain notReset slot domain)
  case reads => exact named notReset (takeCheck_level notReset slot (by rwa [Descriptor.needs, if_pos (by simpa using reads)]))
  case edits =>
    refine named notReset (takeCheck_level notReset slot ?_)
    have other : c ∉ [Command.readSlot, .scan] := by revert edits; cases c <;> decide
    rwa [Descriptor.needs, if_neg other, if_pos edits]
  case zero =>
    refine named notReset (takeCheck_level notReset slot ?_)
    have other : c ∉ [Command.readSlot, .scan] := by revert zero; cases c <;> decide
    have noEdit : c ∉ [Command.writeSlot, .setVerdict, .hold, .release, .confirm, .pin, .unpin, .retire, .sweep] := by
      revert zero; cases c <;> decide
    rwa [Descriptor.needs, if_neg other, if_neg noEdit]
  case passed =>
    have progress := inFlight_progress_of_passed (takeCheck_passed notReset slot domain permitted)
    refine ⟨_, s.inFlight (some c) o, (exec_ofCommand o c s).trans (commandFrame_taken ready fun reset =>
      absurd (Option.some.inj reset) notReset), take_engine .., ?_⟩
    rw [progress]
    refine ⟨fun h => ?_, fun h => ?_, fun h => ?_⟩
    all_goals rcases startOf_refused h with e | e | e <;> cases e

/-! ### The command in flight (R145, Table 9-3) -/

theorem stagedFor_eq (s : State) (o : Operands) (c : Command) : s.stagedFor o c =
    if c = .writeSlot ∨ c = .setVerdict ∨ (c = .confirm ∧ flag0 o.flags = true) then .binding s.stagingBinding
    else if c = .setDescriptor ∨ c = .restore then .domain s.stagingDomain else .absent := by
  cases c <;> simp [State.stagedFor]

theorem take_otherDomains (s : State) (c : Option Command) (o : Operands) : s.otherDomainsKept (s.take c o) o.domain.toNat := by
  intro m _ other
  rw [take_domainAt, if_neg fun same => other same.2.1.symm]

/-- Settles O27: a take writes `inFlight` and places its claim; a RESTORE's RESTORING aside it leaves every record. -/
theorem takeWritesTheCommandInFlight : Obligations.TakeWritesTheCommandInFlight := by
  unfold Obligations.TakeWritesTheCommandInFlight
  intro o s c ready notPermitted
  have row : exec (.ofCommand o c) s = .next (s.take (some c) o) := by
    rw [exec_ofCommand, commandFrame_taken ready]
    exact fun reset => notPermitted.resolve_left fun other => other (Option.some.inj reset)
  refine ⟨_, s.inFlight (some c) o, row, take_engine .., ?refused, ?frame, rfl, commandLevel_toNat o.rpl, rfl, rfl, rfl, rfl, rfl,
    stagedFor_eq s o c, take_commandClaim .., ?rest, ?notRestore, take_otherDomains s (some c) o, ?grant⟩
  case refused => rw [take_frame]
  case frame => rw [take_frame]
  case rest =>
    rw [take_frame]
  case notRestore =>
    intro other
    rw [take_of_ne_restore s other]
    exact ⟨rfl, rfl⟩
  case grant =>
    intro uses slot domain level
    have notReset : c ≠ .reset := by rintro rfl; exact absurd uses (by decide)
    rw [inFlight_progress_of_passed (takeCheck_passed notReset (.inr slot) domain level)]
    fin_cases uses <;> rfl

end Sys2Proof.Machine
end

section
/-! PROOFS. How a pass, a SET_DESCRIPTOR and a RESTORE go on after the take checks (R37, R38, R165, R166, R173). -/

namespace Sys2Proof.Machine

/-! ### Passes -/

theorem segment_asked (d : Descriptor) (flags : Word) :
    d.segment (segmentAsked flags) = if bitsAt flags 1 1 = 1 then d.standby else d.active := by
  unfold segmentAsked
  split <;> rfl

theorem criteriaOf_restart (flags : Word) : (criteriaOf flags).restart = true ↔ bitsAt flags 0 1 = 1 := getLsbD_iff flags 0

theorem passStart_badRecord (d : DomainRecord) {flags : Word} (bad : bitsAt flags 8 2 = 3 ∨ bitsAt flags 10 2 = 3) :
    passStart d flags = .refused .badRecord := by
  have invalid : criteriaValid flags = false := Bool.eq_false_iff.mpr fun valid => (criteriaValid_iff flags).mp valid bad
  simp only [passStart, invalid, Bool.not_false, if_true]

section
variable {d : DomainRecord} {flags : Word} (good : ¬ (bitsAt flags 8 2 = 3 ∨ bitsAt flags 10 2 = 3))
include good

/-- An issue with RESTART starts at offset 0 (R166). -/
theorem passStart_restart (restart : bitsAt flags 0 1 = 1) : passStart d flags =
    if (d.desc.segment (segmentAsked flags)).size ≤ 0 then .complete else .visit 0 0 0 := by
  simp only [passStart, (criteriaValid_iff flags).mpr good, (criteriaOf_restart flags).mpr restart, criteriaOf_segment, Bool.not_true,
    Bool.false_eq_true, if_true, if_false]

/-- An issue without RESTART starts at CURSOR's offset, where CURSOR stands in the segment asked for (R166). -/
theorem passStart_resume (resume : ¬ bitsAt flags 0 1 = 1) : passStart d flags = match d.cursor with
    | none => .refused .staleCursor
    | some p => if p.segment = segmentAsked flags then
        (if (d.desc.segment (segmentAsked flags)).size ≤ p.offset then .complete else .visit p.offset 0 0)
      else .refused .staleCursor := by
  have restart := mt (criteriaOf_restart flags).mp resume
  simp only [passStart, (criteriaValid_iff flags).mpr good, restart, criteriaOf_segment, Bool.not_true, Bool.false_eq_true, if_false] <;>
    rfl

theorem passStart_ne_badRecord : passStart d flags ≠ .refused .badRecord := by
  by_cases restart : bitsAt flags 0 1 = 1
  · rw [passStart_restart good restart]
    split <;> exact nofun
  · rw [passStart_resume good restart]
    repeat' split
    all_goals exact nofun
end

/-- Settles O29: the take's progress is `passStart`, case by case of the criteria, RESTART and CURSOR. -/
theorem passesStartAtTheirOffset : Obligations.PassesStartAtTheirOffset := by
  unfold Obligations.PassesStartAtTheirOffset
  intro o s c ready pass domain level d bad restart name seg
  have notReset : c ≠ .reset := by rintro rfl; revert pass; decide
  have notRestore : c ≠ .restore := by rintro rfl; revert pass; decide
  have noSlot : c ∉ slotCommands := by revert pass; cases c <;> decide
  have needs : d.desc.needs c = if c = .scan then d.desc.lookupLevel.toNat else d.desc.editLevel.toNat := by
    obtain rfl | rfl := pass <;> rfl
  have passed := takeCheck_passed (s := s) notReset (.inl noSlot) domain (needs ▸ level)
  have progress : (s.inFlight (some c) o).progress = passStart d o.flags := by
    rw [inFlight_progress_of_passed passed]
    obtain rfl | rfl := pass <;> rfl
  have row : exec (.ofCommand o c) s = .next (s.take (some c) o) := by
    rw [exec_ofCommand, commandFrame_taken ready fun reset => absurd (Option.some.inj reset) notReset]
  have sizes : (d.desc.segment (segmentAsked o.flags)).size = seg.size := by rw [segment_asked]
  refine ⟨_, s.inFlight (some c) o, row, take_engine .., take_commandClaim .., by rw [take_of_ne_restore s notRestore], rfl, ?_⟩
  rw [progress]
  refine ⟨⟨fun refused => ?_, passStart_badRecord d⟩, fun good resume elsewhere => ?_, fun start good begins => ?_⟩
  · by_contra good
    exact passStart_ne_badRecord good refused
  · rw [passStart_resume good resume]
    obtain absent | ⟨p, present, other⟩ := elsewhere
    · rw [absent]
    · rw [present]
      exact if_neg other
  · have begun : passStart d o.flags = if seg.size ≤ start then .complete else .visit start 0 0 := by
      obtain ⟨again, rfl⟩ | ⟨resume, cursor⟩ := begins
      · rw [passStart_restart good again, sizes]
      · rw [passStart_resume good resume, cursor, sizes]
        exact if_pos rfl
    rw [begun]
    exact ⟨fun before => if_neg (Nat.not_le.mpr before), fun past => if_pos past⟩

/-! ### SET_DESCRIPTOR and RESTORE -/

theorem overlaps_iff (s : State) (n : Nat) (d : Descriptor) : s.overlaps n d = true ↔
    d.active.disjoint d.standby = false ∨ ∃ m, m < 16 ∧ m ≠ n ∧ d.apart (s.domainAt m).desc = false := by
  rw [← Bool.not_eq_false, overlaps_false, not_and_or]
  simp only [not_forall, Bool.not_eq_true, exists_prop]

/-- A copy as SET_DESCRIPTOR checks it (R37), or as RESTORE does, with its STATE (R173). -/
def copyValid (c : Command) (v : Vector Word 24) : Bool := if c = .restore then domainValid v else descriptorValid v

theorem copyValid_iff (c : Command) (v : Vector Word 24) :
    copyValid c v = true ↔ ¬ (badDescriptor v ∨ (c = .restore ∧ 2 < bitsAt v[0] 24 8)) := by
  unfold copyValid
  split
  · next restore => simp only [domainValid_iff, not_or, not_and, Nat.not_lt, restore, forall_const]
  · next other => rw [descriptorValid_iff]; simp only [other, false_and, or_false]

/-- The start of a SET_DESCRIPTOR or RESTORE whose copy is `v`: its validity, then R38, then the examination. -/
theorem startOf_copy (s : State) (o : Operands) {c : Command} (which : c = .setDescriptor ∨ c = .restore) (v : Vector Word 24) :
    s.startOf o (.domain v) c =
      if !copyValid c v then .refused .badRecord
      else if s.overlaps o.domain.toNat (descriptorOf v) then .refused .overlap
      else examineFrom (s.domainAt o.domain.toNat).desc (descriptorOf v) 0 := by
  obtain rfl | rfl := which <;> rfl

theorem examineFrom_notRefused (d e : Descriptor) (m : Nat) : (examineFrom d e m).isRefused = false := by
  obtain ⟨_, e, _⟩ | ⟨e, _⟩ := examineFrom_cases d e m <;> rw [e] <;> rfl

theorem take_domains_kept (s : State) {c : Option Command} {o : Operands}
    (quiet : ¬ (c = some .restore ∧ (s.inFlight c o).progress.isRefused = false)) : (s.take c o).domains = s.domains := by
  obtain ⟨_, e⟩ | ⟨restore, passed, _⟩ := take_cases s c o
  · rw [e]
  · exact absurd ⟨restore, passed⟩ quiet

/-- Settles O30: the take's progress is `startOf_copy`, and RESTORING follows it. -/
theorem descriptorTakeChecks : Obligations.DescriptorTakeChecks := by
  unfold Obligations.DescriptorTakeChecks
  intro o s c ready which domain level n v new bad meets
  have notReset : c ≠ .reset := by rintro rfl; revert which; decide
  have noSlot : c ∉ slotCommands := by revert which; cases c <;> decide
  have zero : min o.rpl.toNat 3 = 0 := by rw [level]; rfl
  have passed := takeCheck_passed (s := s) notReset (.inl noSlot) domain (zero ▸ Nat.zero_le _)
  have staged : s.stagedFor o c = .domain v := by obtain rfl | rfl := which <;> rfl
  have progress := inFlight_progress_of_passed passed
  rw [staged, startOf_copy s o which v] at progress
  have row : exec (.ofCommand o c) s = .next (s.take (some c) o) := by
    rw [exec_ofCommand, commandFrame_taken ready fun reset => absurd (Option.some.inj reset) notReset]
  have valid (good : ¬ bad) : ¬ (!copyValid c v) = true := by rw [(copyValid_iff c v).mpr good]; decide
  have badRecord (h : bad) : (s.inFlight (some c) o).progress = .refused .badRecord := by
    rw [progress, if_pos]
    rw [Bool.not_eq_true', Bool.eq_false_iff]
    exact fun valid => (copyValid_iff c v).mp valid h
  have overlap (good : ¬ bad) (h : meets) : (s.inFlight (some c) o).progress = .refused .overlap := by
    rw [progress, if_neg (valid good), if_pos ((overlaps_iff ..).mpr h)]
  have examined (good : ¬ bad) (apart : ¬ meets) : (s.inFlight (some c) o).progress = examineFrom (s.domainAt n).desc new 0 := by
    rw [progress, if_neg (valid good), if_neg (mt (overlaps_iff ..).mp apart)]
  refine ⟨_, s.inFlight (some c) o, row, take_engine .., badRecord, overlap, fun good apart => ?examined,
    fun restore good apart => ?restoring, ?kept⟩
  case examined =>
    have progress := examined good apart
    unfold examineFrom at progress
    generalize nextLeaving (s.domainAt n).desc new 0 = first at progress ⊢
    cases first <;> exact progress
  case restoring =>
    rw [take_domainAt, if_pos]
    refine ⟨⟨congrArg some restore, ?_⟩, rfl, Nat.lt_succ_of_le domain⟩
    rw [examined good apart, examineFrom_notRefused]
  case kept =>
    intro quiet
    refine take_domains_kept s fun ⟨restore, notRefused⟩ => ?_
    by_cases h : bad
    · rw [badRecord h] at notRefused; cases notRefused
    obtain rfl | h' | meet := quiet
    · cases restore
    · exact h h'
    · rw [overlap h meet] at notRefused; cases notRefused

end Sys2Proof.Machine
end

section
/-! PROOFS. The grant of a one-slot command: its checks in order, and what each command makes of its slot (R48, R93, R109, R150 to R159). -/

namespace Sys2Proof.Machine

/-! ### The checks (R13, R48, R49, R150, R152, R153) -/

theorem owns_false_iff (d : Descriptor) (i : Nat) : d.owns i = false ↔ d.active.has i = false ∧ d.standby.has i = false := by
  simp only [Descriptor.owns, Bool.or_eq_false_iff]

theorem namesHandle_iff (c : Command) (flags : Word) : namesHandle c flags = true ↔
    c ∈ [.setVerdict, .hold, .release, .confirm, .pin, .unpin, .retire] ∨ (c = .writeSlot ∧ flag0 flags = true) := by
  cases c <;> simp [namesHandle]

theorem staleHandle_iff (c : Command) (f : InFlight) (r : Slot) :
    (namesHandle c f.flags && (decide (r.state = .free) || r.gen != f.gen)) = true ↔
      (c ∈ [.setVerdict, .hold, .release, .confirm, .pin, .unpin, .retire] ∨ (c = .writeSlot ∧ flag0 f.flags = true)) ∧
        (r.state = .free ∨ r.gen ≠ f.gen) := by
  rw [Bool.and_eq_true, namesHandle_iff, Bool.or_eq_true, decide_eq_true_eq, bne_iff_ne]

theorem wrongState_iff (c : Command) (st : SlotState) : wrongState c st = true ↔
    (c = .hold ∧ st ≠ .live) ∨ (c = .release ∧ st ≠ .held) ∨ (c = .confirm ∧ st ≠ .provisional) ∨
      ((c = .pin ∨ c = .unpin) ∧ st = .provisional) := by
  cases c <;> simp [wrongState]

theorem badRecord_iff (c : Command) (flags : Word) (v : Vector Word 16) : badRecord c flags v = true ↔
    (c = .writeSlot ∧ badBinding v) ∨ ((c = .setVerdict ∨ (c = .confirm ∧ flag0 flags = true)) ∧ badVerdict v[9]) := by
  have binding : (!bindingValid v) = true ↔ badBinding v := by
    rw [Bool.not_eq_true', ← Bool.not_eq_true, bindingValid_iff, not_not]
  have verdict : (!verdictValid v[9]) = true ↔ badVerdict v[9] := by
    rw [Bool.not_eq_true', ← Bool.not_eq_true, verdictValid_iff, not_not]
  cases c <;> simp only [badRecord, binding, verdict, Bool.and_eq_true, reduceCtorEq, Bool.false_eq_true, true_and, false_and,
    or_false, false_or]

theorem occupied_iff (c : Command) (flags : Word) (st : SlotState) :
    occupied c flags st = true ↔ c = .writeSlot ∧ flag0 flags = false ∧ st ≠ .free := by
  simp only [occupied, Bool.and_eq_true, decide_eq_true_eq, Bool.not_eq_true', and_assoc]

/-! ### The grant (R152) -/

theorem slotCommand_refused {s : State} {c : Command} {f : InFlight} {code : ResultCode}
    (refused : grantCheck c f (s.domainAt f.domain.toNat).desc (s.slotAt f.slot.toNat) = some code) :
    s.slotCommand c f = (s.grant .command).complete (.onSlot code f.slot.toNat (s.slotAt f.slot.toNat).gen) := by
  simp only [State.slotCommand, refused]

theorem slotCommand_edited {s : State} {c : Command} {f : InFlight} (notRead : c ≠ .readSlot)
    (passed : grantCheck c f (s.domainAt f.domain.toNat).desc (s.slotAt f.slot.toNat) = none) :
    s.slotCommand c f =
      let edited := editedRecord c f (s.domainAt f.domain.toNat).desc (s.slotAt f.slot.toNat)
      ((s.grant .command).setSlot f.slot.toNat edited).complete (.onSlot .done f.slot.toNat edited.gen) := by
  simp only [State.slotCommand, passed, notRead, if_false]

theorem exec_commandGrant_next {s : State} {f : InFlight} {c : Command} (granted : s.grantsCommand f c .grant)
    (uses : c ∈ slotCommands) : exec .commandGrant s = .next (s.slotCommand c f) := by
  rw [exec_commandGrant, execCommandGrant_of_grantsCommand granted ((usesSlot_iff c).mpr uses)]

/-- Settles O31: each check by its own conditions, made one after the other. -/
theorem refusedSlotCommandsChangeNothing : Obligations.RefusedSlotCommandsChangeNothing := by
  unfold Obligations.RefusedSlotCommandsChangeNothing
  refine ⟨?checks, ?grant⟩
  case checks =>
    intro c f d r _ out handle stale wrong bad taken
    have check : grantCheck c f d r = if d.owns f.slot.toNat = false then some .notInSegment
        else if (namesHandle c f.flags && (decide (r.state = .free) || r.gen != f.gen)) = true then some .stale
        else if wrongState c r.state = true then some .wrongState
        else if badRecord c f.flags f.staged.bindingWords = true then some .badRecord
        else if occupied c f.flags r.state = true then some .occupied else none := by
      simp only [grantCheck, Bool.not_eq_true']
    have isOut : d.owns f.slot.toNat = false ↔ out := owns_false_iff ..
    have isStale : (namesHandle c f.flags && (decide (r.state = .free) || r.gen != f.gen)) = true ↔ stale := staleHandle_iff ..
    have isWrong : wrongState c r.state = true ↔ wrong := wrongState_iff ..
    have isBad : badRecord c f.flags f.staged.bindingWords = true ↔ bad := badRecord_iff ..
    have isTaken : occupied c f.flags r.state = true ↔ taken := occupied_iff ..
    rw [check]
    refine ⟨fun h => if_pos (isOut.mpr h), fun noOut h => ?_, fun noOut noStale h => ?_, fun noOut noStale noWrong h => ?_,
      fun noOut noStale noWrong noBad h => ?_, fun noOut noStale noWrong noBad noTaken => ?_⟩
    · rw [if_neg (mt isOut.mp noOut), if_pos (isStale.mpr h)]
    · rw [if_neg (mt isOut.mp noOut), if_neg (mt isStale.mp noStale), if_pos (isWrong.mpr h)]
    · rw [if_neg (mt isOut.mp noOut), if_neg (mt isStale.mp noStale), if_neg (mt isWrong.mp noWrong), if_pos (isBad.mpr h)]
    · rw [if_neg (mt isOut.mp noOut), if_neg (mt isStale.mp noStale), if_neg (mt isWrong.mp noWrong), if_neg (mt isBad.mp noBad),
        if_pos (isTaken.mpr h)]
    · rw [if_neg (mt isOut.mp noOut), if_neg (mt isStale.mp noStale), if_neg (mt isWrong.mp noWrong), if_neg (mt isBad.mp noBad),
        if_neg (mt isTaken.mp noTaken)]
  case grant =>
    intro s f c code granted uses r refused
    rw [exec_commandGrant_next granted uses, slotCommand_refused refused]
    rfl

/-- Settles O32: the record a WRITE_SLOT writes, with its new GEN in RESULT. -/
theorem writeSlotWritesTheWholeRecord : Obligations.WriteSlotWritesTheWholeRecord := by
  unfold Obligations.WriteSlotWritesTheWholeRecord
  intro s f granted i b passed
  rw [exec_commandGrant_next granted (by decide), slotCommand_edited (by decide) passed]
  rfl

/-- Settles O33: the field each of the seven commands sets, GEN kept. -/
theorem editsChangeTheirFieldsAlone : Obligations.EditsChangeTheirFieldsAlone := by
  unfold Obligations.EditsChangeTheirFieldsAlone
  intro s f c granted edits i r passed v
  have uses : c ∈ slotCommands := by revert edits; cases c <;> decide
  have notRead : c ≠ .readSlot := by rintro rfl; revert edits; decide
  rw [exec_commandGrant_next granted uses, slotCommand_edited notRead passed]
  fin_cases edits <;> rfl

end Sys2Proof.Machine
end

section
/-! PROOFS. The visits of a pass and the examinations of SET_DESCRIPTOR and RESTORE (R39, R165, R167, R168, R174). -/

namespace Sys2Proof.Machine

/-! ### Visits -/

section
variable {s : State} {f : InFlight} {c : Command} {o v x : Nat}

theorem exec_passVisit (granted : s.grantsCommand f c (.visit o v x)) (pass : c = .scan ∨ c = .sweep) :
    exec .passVisit s = .next (s.visitSlot (decide (c = .sweep)) f o v x) := by
  obtain ⟨next, engine, command, progress⟩ := granted
  change execPassVisit s = _
  obtain rfl | rfl := pass
  · simp only [execPassVisit, next, engine, command, progress, if_true]
    rfl
  · simp only [execPassVisit, next, engine, command, progress, if_true]
    rfl
end

/-- A visit's grant, with a selected slot of a SWEEP made FREE (R167). -/
def State.sweptAt (s : State) (retires : Prop) [Decidable retires] (i : Nat) : State := { s with
  lastGranted := .command, commandClaim := false
  slots := if retires then s.slots.setIfInBounds i (Slot.free (s.slotAt i).gen) else s.slots }

section
variable {s : State} {sweep : Bool} {f : InFlight} {o v x : Nat} {g : Segment} {hit : Prop}
  (seg : g = (s.domainAt f.domain.toNat).desc.segment (segmentAsked f.flags))
  (fits : hit ↔ selected (criteriaOf f.flags) (s.slotAt (g.base + o)) = true)
include seg fits

/-- A SCAN ends FOUND at a selected slot (R168). -/
theorem visitSlot_found (scan : sweep = false) (found : hit) : s.visitSlot sweep f o v x =
    (s.grant .command).passDone f.domain.toNat .found { slot := g.base + o, gen := (s.slotAt (g.base + o)).gen }
      (some { segment := segmentAsked f.flags, offset := o + 1 }) 0 := by
  subst seg
  have select := fits.mp found
  rw [← criteriaOf_segment] at select ⊢
  simp only [State.visitSlot, select, scan, if_true, Bool.false_eq_true, if_false]

/-- Every other visit passes on, a selected slot of a SWEEP made FREE and counted (R167). -/
theorem visitSlot_passes [Decidable hit] (on : sweep = true ∨ ¬ hit) : s.visitSlot sweep f o v x =
    (s.sweptAt (sweep = true ∧ hit) (g.base + o)).passOn sweep f g (segmentAsked f.flags) (o + 1) (v + 1)
      (if sweep = true ∧ hit then x + 1 else x) := by
  subst seg
  by_cases found : hit
  · have sweeps : sweep = true := on.resolve_right (not_not_intro found)
    have select := fits.mp found
    rw [← criteriaOf_segment] at select ⊢
    simp only [State.visitSlot, State.sweptAt, select, sweeps, found, if_true, and_self]
    rfl
  · have select := mt fits.mpr found
    rw [← criteriaOf_segment] at select ⊢
    simp only [State.visitSlot, State.sweptAt, select, found, if_false, and_false]
    rfl
end

section
variable {s : State} {sweep : Bool} {f : InFlight} {g : Segment} {name : SegmentName} {o v x : Nat}

theorem passOn_end (past : g.size ≤ o) : s.passOn sweep f g name o v x =
    s.passDone f.domain.toNat (if sweep then .done else .endOfPass) .none none x := if_pos past

theorem passOn_partial (before : o < g.size) (last : 64 ≤ v) : s.passOn sweep f g name o v x =
    s.passDone f.domain.toNat .partialPass .none (some { segment := name, offset := o }) x := by
  rw [State.passOn, if_neg (Nat.not_le.mpr before), if_pos last]

theorem passOn_next (before : o < g.size) (more : v < 64) : s.passOn sweep f g name o v x =
    { s with engine := .busy { f with progress := .visit o v x }, commandClaim := true } := by
  rw [State.passOn, if_neg (Nat.not_le.mpr before), if_neg (Nat.not_le.mpr more)]
end

/-- Settles O35: a visit finds or passes on, and what it passes on to is judged by the segment's size and the 64 visits. -/
theorem visitsFindRetireOrMoveOn : Obligations.VisitsFindRetireOrMoveOn := by
  unfold Obligations.VisitsFindRetireOrMoveOn
  intro s f c o v x granting pass _ n d name g i r hit x' granted ended
  have row := exec_passVisit granting pass
  have seg : g = d.desc.segment name := (segment_asked ..).symm
  have fits : hit ↔ selected (criteriaOf f.flags) (s.slotAt (g.base + o)) = true := (selected_iff ..).symm
  have passes (on : c = .sweep ∨ ¬ hit) : s.visitSlot (decide (c = .sweep)) f o v x =
      granted.passOn (decide (c = .sweep)) f g name (o + 1) (v + 1) x' := by
    rw [visitSlot_passes seg fits (on.imp_left decide_eq_true)]
    simp only [State.sweptAt, decide_eq_true_eq]
    rfl
  refine ⟨fun scan found => ?found, fun on past => ?done, fun on before last => ?partly, fun on before more => ?next⟩
  case found =>
    rw [row, visitSlot_found seg fits (by rw [scan]; rfl) found]
    have kept : granted = s.grant .command := by simp only [granted, scan, reduceCtorEq, false_and, if_false]; rfl
    simp only [ended, kept]
    rfl
  case done =>
    rw [row, passes on, passOn_end past]
    simp only [decide_eq_true_eq]
    rfl
  case partly =>
    rw [row, passes on, passOn_partial before last]
    rfl
  case next =>
    rw [row, passes on, passOn_next before more]

/-! ### Examinations -/

/-- The row of an examination grant (R39, R174). -/
def examinationRow (c : Command) : Instr :=
  if c = .setDescriptor then .descriptorExaminationGrant else .restoreExaminationGrant

section
variable {s : State} {f : InFlight} {c : Command} {i : Nat} (granted : s.grantsCommand f c (.examine i))
  (which : c = .setDescriptor ∨ c = .restore)
include granted which

theorem exec_examination_free (free : (s.slotAt i).state = .free) :
    exec (examinationRow c) s = .next ((s.grant .command).examineNext f i) := by
  obtain ⟨next, engine, command, progress⟩ := granted
  obtain rfl | rfl := which
  · change execDescriptorExaminationGrant s = _
    simp only [execDescriptorExaminationGrant, next, engine, command, progress, free, if_true]
  · change execRestoreExaminationGrant s = _
    simp only [execRestoreExaminationGrant, next, engine, command, progress, free, if_true]

/-- STRANDED ends the command, and RESTORE's RESTORING returns to no (R39, R174). -/
theorem exec_examination_stranded (binding : (s.slotAt i).state ≠ .free) : exec (examinationRow c) s =
    .next (if c = .restore then s.judgeFrom (((s.grant .command).setDomain f.domain.toNat
        { s.domainAt f.domain.toNat with restoring := false }).complete (.onSlot .stranded i (s.slotAt i).gen))
      else (s.grant .command).complete (.onSlot .stranded i (s.slotAt i).gen)) := by
  obtain ⟨next, engine, command, progress⟩ := granted
  obtain rfl | rfl := which
  · change execDescriptorExaminationGrant s = _
    simp only [execDescriptorExaminationGrant, next, engine, command, progress, binding, if_true, if_false, reduceCtorEq]
  · change execRestoreExaminationGrant s = _
    simp only [execRestoreExaminationGrant, next, engine, command, progress, binding, if_true, if_false]
end

theorem leaves_iff (d new : Descriptor) (i : Nat) : leaves d new i = true ↔ d.owns i = true ∧ new.owns i = false := by
  simp only [leaves, Bool.and_eq_true, Bool.not_eq_true']

theorem leaves_false_iff (d new : Descriptor) (i : Nat) : leaves d new i = false ↔ d.owns i = false ∨ new.owns i = true := by
  simp only [leaves, Bool.and_eq_false_iff, Bool.not_eq_false']

/-- An examination goes on with the next slot that is left (R39: in index order). -/
theorem examineFrom_of_next {d new : Descriptor} {m j : Nat} (above : m ≤ j) (bound : j < 1024) (left : leaves d new j = true)
    (between : ∀ k, m ≤ k → k < j → leaves d new k = false) : examineFrom d new m = .examine j := by
  obtain ⟨j', e, above', _, left', between'⟩ | ⟨_, none⟩ := examineFrom_cases d new m
  · obtain before | rfl | after := Nat.lt_trichotomy j j'
    · rw [between' j above before] at left; cases left
    · exact e
    · rw [between j' above' after] at left'; cases left'
  · rw [none j above bound] at left; cases left

theorem examineFrom_of_none {d new : Descriptor} {m : Nat} (none : ∀ k, m ≤ k → k < 1024 → leaves d new k = false) :
    examineFrom d new m = .complete := by
  obtain ⟨j, _, above, bound, left, _⟩ | ⟨e, _⟩ := examineFrom_cases d new m
  · rw [none j above bound] at left; cases left
  · exact e

/-- An examination that finds its slot FREE goes on as `examineFrom` gives. -/
theorem examineNext_eq {s : State} {f : InFlight} {i : Nat} {p : Progress}
    (progress : examineFrom (s.domainAt f.domain.toNat).desc (descriptorOf f.staged.domainWords) (i + 1) = p) :
    (s.grant .command).examineNext f i = { s with
      lastGranted := .command, engine := .busy { f with progress := p }, commandClaim := p.claims } := by
  simp only [State.examineNext, domainAt_grant, progress]
  rfl

theorem setIfInBounds_domainAt (s : State) (n : Nat) : s.domains.setIfInBounds n (s.domainAt n) = s.domains :=
  congrArg State.domains (setDomain_domainAt s n)

/-- Settles O36: a FREE slot passes to the next slot that is left, or to the completion; another ends the command. -/
theorem examinationEndsAtABinding : Obligations.ExaminationEndsAtABinding := by
  unfold Obligations.ExaminationEndsAtABinding
  intro s f c i granted which _ row n d new r
  refine ⟨fun binding => ?stranded, fun free j above bound owned left between => ?next, fun free none => ?complete⟩
  case stranded =>
    refine ⟨_, exec_examination_stranded granted which binding, ?_⟩
    obtain rfl | rfl := which
    · simp only [reduceCtorEq, if_false, d, n, setIfInBounds_domainAt]
      rfl
    · simp only [if_true]
      exact judgeFrom_eq ..
  case next =>
    have progress : examineFrom d.desc new (i + 1) = .examine j :=
      examineFrom_of_next above bound ((leaves_iff ..).mpr ⟨owned, left⟩) fun m after before =>
        (leaves_false_iff ..).mpr (between m after before)
    rw [show row = examinationRow c from rfl, exec_examination_free granted which free, examineNext_eq progress]
    rfl
  case complete =>
    have progress : examineFrom d.desc new (i + 1) = .complete :=
      examineFrom_of_none fun m after bound => (leaves_false_iff ..).mpr (none m after bound)
    rw [show row = examinationRow c from rfl, exec_examination_free granted which free, examineNext_eq progress]
    rfl

end Sys2Proof.Machine
end

section
/-! PROOFS. Completions, and the takes of the commands that have no grant (R34, R36, R40, R42, R139, R148, R150, R166, R170, R171, R175). -/

namespace Sys2Proof.Machine

/-! ### Takes without a claim (R28, R30, R145, R151) -/

section
variable {s : State} {o : Operands} {c : Command} (ready : s.readyToTake)
include ready

/-- A command that passes its take checks, takes no claim and is no RESTORE, at its take. -/
theorem exec_taken_noClaim (notReset : c ≠ .reset) (notRestore : c ≠ .restore)
    (noClaim : (s.inFlight (some c) o).progress.claims = false) : exec (.ofCommand o c) s = .next { s with
      engine := .busy (s.inFlight (some c) o), refused := false, commandClaim := false, frame := .ignoring } := by
  rw [exec_ofCommand, commandFrame_of_readyToTake ready notReset, take_of_ne_restore s notRestore, noClaim]

/-- A command that needs level 0 is DENIED at any other (R30, R151). -/
theorem exec_levelZero_denied (notReset : c ≠ .reset) (notRestore : c ≠ .restore) (noSlot : c ∉ slotCommands)
    (zero : (s.domainAt o.domain.toNat).desc.needs c = 0) (level : o.rpl ≠ 0) :
    ∃ f, exec (.ofCommand o c) s = .next { s with
      engine := .busy f, refused := false, commandClaim := false, frame := .ignoring } ∧ f.progress = .refused .denied := by
  have above : 0 < min o.rpl.toNat 3 := by
    have : o.rpl.toNat ≠ 0 := fun h => level (BitVec.eq_of_toNat_eq h)
    omega
  have progress := inFlight_progress_of_refused (takeCheck_level (s := s) notReset (.inl noSlot) (zero ▸ above))
  exact ⟨_, exec_taken_noClaim ready notReset notRestore (by rw [progress]; rfl), progress⟩

/-- A command that needs level 0 and goes on to its completion, or ends refused for its value, at its take. -/
theorem exec_levelZero_passed (notReset : c ≠ .reset) (notRestore : c ≠ .restore) (noSlot : c ∉ slotCommands)
    (domain : o.domain.toNat ≤ 15) (level : o.rpl = 0) (noClaim : (s.startOf o (s.stagedFor o c) c).claims = false) :
    exec (.ofCommand o c) s = .next { s with
      engine := .busy (s.inFlight (some c) o), refused := false, commandClaim := false, frame := .ignoring } ∧
      (s.inFlight (some c) o).progress = s.startOf o (s.stagedFor o c) c := by
  have zero : min o.rpl.toNat 3 = 0 := by rw [level]; rfl
  have progress := inFlight_progress_of_passed
    (takeCheck_passed (s := s) notReset (.inl noSlot) domain (zero ▸ Nat.zero_le _))
  exact ⟨exec_taken_noClaim ready notReset notRestore (by rw [progress]; exact noClaim), progress⟩
end

/-! ### The completion event (R148) -/

theorem execCommandCompletion_of_refused {s : State} {f : InFlight} {code : ResultCode} (engine : s.engine = .busy f)
    (progress : f.progress = .refused code) : execCommandCompletion s = .next (s.complete (.plain code)) := by
  simp only [execCommandCompletion, engine, progress]

theorem awaitsCompletion_running {s : State} {f : InFlight} {c : Command} (awaits : s.awaitsCompletion f c) : s.inInit = false :=
  inInit_of_engine_busy awaits.1

theorem domainDone_completedWith (s : State) (n : Nat) (d : DomainRecord) :
    s.completedWith (s.domainDone n d) n d (.plain .done) := judgeFrom_eq ..

/-- Settles O37: a refusal writes RESULT alone, and a pass with no visit CURSOR too. -/
theorem refusedAndEmptyCommandsComplete : Obligations.RefusedAndEmptyCommandsComplete := by
  unfold Obligations.RefusedAndEmptyCommandsComplete
  intro s f plain
  refine ⟨fun code busy progress => ?refused, fun c pass awaits => ?empty⟩
  case refused =>
    rw [exec_commandCompletion, execCommandCompletion_of_refused busy progress]
    rfl
  case empty =>
    obtain rfl | rfl := pass
    · rw [exec_commandCompletion, execCommandCompletion_of_awaitsCompletion awaits rfl]
      rfl
    · rw [exec_commandCompletion, execCommandCompletion_of_awaitsCompletion awaits rfl]
      rfl

/-! ### SET_DESCRIPTOR and RESTORE (R36, R40, R175) -/

theorem refusesActive_iff (d : DomainRecord) (new : Descriptor) :
    d.refusesActive new = true ↔ d.state ≠ .off ∧ new.active ≠ d.desc.active := by
  simp only [DomainRecord.refusesActive, Bool.and_eq_true, decide_eq_true_eq]

theorem execRestoreCompletion_of_awaitsCompletion {s : State} {f : InFlight} (awaits : s.awaitsCompletion f .restore) :
    execRestoreCompletion s = .next (s.domainDone f.domain.toNat (restoredRecordOf f.staged.domainWords)) := by
  obtain ⟨engine, command, progress, _⟩ := awaits
  simp only [execRestoreCompletion, engine, command, progress]

/-- Settles O38: DOMAIN_ON or the load of the copied descriptor; the load of the copied record. -/
theorem setDescriptorAndRestoreLoadTheirCopies : Obligations.SetDescriptorAndRestoreLoadTheirCopies := by
  unfold Obligations.SetDescriptorAndRestoreLoadTheirCopies
  refine ⟨fun s f awaits => ?descriptor, ?restore⟩
  case descriptor =>
    intro d new refused
    have isRefused : d.refusesActive new = true ↔ refused := refusesActive_iff d new
    rw [exec_commandCompletion, execCommandCompletion_of_awaitsCompletion awaits rfl]
    refine ⟨fun refuses => ?_, fun loads => ⟨_, congrArg Host.Outcome.next (if_neg (mt isRefused.mp loads)), ?_⟩⟩
    · rw [if_pos (isRefused.mpr refuses)]
      rfl
    · exact domainDone_completedWith ..
  case restore =>
    intro s f st awaits v state
    have record : restoredRecordOf v = { state := st, desc := descriptorOf v, sticky := field v[1] 0 8, counters := countersOf v
                                         cursor := none, restoring := false } := by
      rw [restoredRecordOf, state]
      rfl
    refine ⟨_, execRestoreCompletion_of_awaitsCompletion awaits, ?_⟩
    rw [← record]
    exact domainDone_completedWith ..

/-! ### The commands of one Domain Table event -/

/-- EXCHANGE changes neither STICKY, MASK nor RESTORING. -/
theorem exchange_attending (d : DomainRecord) : d.exchange.attending = d.attending := rfl

/-- Settles O39: EXCHANGE leaves what attends, so its record and RESULT are all that changes. -/
theorem exchangeSwapsTheSegments : Obligations.ExchangeSwapsTheSegments := by
  unfold Obligations.ExchangeSwapsTheSegments
  refine ⟨fun o s ready level => ?denied, fun o s ready domain level => ?passed, fun s f awaits => ?completion⟩
  case denied => exact exec_levelZero_denied (c := .exchange) ready (by decide) (by decide) (by decide) rfl level
  case passed =>
    obtain ⟨taken, progress⟩ := exec_levelZero_passed (c := .exchange) ready (by decide) (by decide) (by decide) domain level rfl
    exact ⟨_, taken, rfl, rfl, progress⟩
  case completion =>
    rw [exec_commandCompletion, execCommandCompletion_of_awaitsCompletion awaits rfl,
      domainDone_of_attending_eq (awaitsCompletion_running awaits) (exchange_attending _)]
    rfl

theorem field_low_byte (w : Word) : (field w 0 8).toNat = w.toNat % 256 := by
  rw [toNat_field, bitsAt]
  omega

/-- The code of a domain state names it (Table 11-7). -/
theorem domainStateOf_code {c : Byte} {st : DomainState}
    (code : c.toNat = match st with | .off => 0 | .on => 1 | .frozen => 2) : domainStateOf c = some st := by
  cases st with
  | off => rw [show c = 0 from BitVec.eq_of_toNat_eq code]; rfl
  | on => rw [show c = 1 from BitVec.eq_of_toNat_eq code]; rfl
  | frozen => rw [show c = 2 from BitVec.eq_of_toNat_eq code]; rfl

/-- SET_STATE changes neither STICKY, MASK nor RESTORING. -/
theorem setState_attending (d : DomainRecord) (st : DomainState) : ({ d with state := st } : DomainRecord).attending = d.attending :=
  rfl

/-- Settles O40: the state code is judged at the take, and the completion leaves what attends. -/
theorem setStateSetsTheState : Obligations.SetStateSetsTheState := by
  unfold Obligations.SetStateSetsTheState
  refine ⟨fun o s ready level => ?denied, fun o s ready domain level => ?passed, fun s f st awaits code => ?completion⟩
  case denied => exact exec_levelZero_denied (c := .setState) ready (by decide) (by decide) (by decide) rfl level
  case passed =>
    have start : s.startOf o (s.stagedFor o .setState) .setState =
        if o.value.toNat % 256 ≤ 2 then .complete else .refused .badRecord := by
      simp only [State.startOf, domainStateOf_isSome, field_low_byte]
    have noClaim : (s.startOf o (s.stagedFor o .setState) .setState).claims = false := by
      rw [start]
      split <;> rfl
    obtain ⟨taken, progress⟩ :=
      exec_levelZero_passed (c := .setState) ready (by decide) (by decide) (by decide) domain level noClaim
    exact ⟨_, taken, rfl, rfl, rfl, progress.trans start⟩
  case completion =>
    have state : domainStateOf (field f.value 0 8) = some st := domainStateOf_code ((field_low_byte f.value).trans code)
    have completed : s.completionOf f .setState =
        some (s.domainDone f.domain.toNat { s.domainAt f.domain.toNat with state := st }) := by
      simp only [State.completionOf, state, Option.getD_some]
    rw [exec_commandCompletion, execCommandCompletion_of_awaitsCompletion awaits completed,
      domainDone_of_attending_eq (awaitsCompletion_running awaits) (setState_attending _ st)]
    rfl

/-- Settles O41: the words are the record's before REINIT, and without REINIT the record stays. -/
theorem snapshotCopiesAndMayReinit : Obligations.SnapshotCopiesAndMayReinit := by
  unfold Obligations.SnapshotCopiesAndMayReinit
  refine ⟨fun o s ready level => ?denied, fun o s ready domain level => ?passed, fun s f awaits => ?completion⟩
  case denied => exact exec_levelZero_denied (c := .snapshot) ready (by decide) (by decide) (by decide) rfl level
  case passed =>
    obtain ⟨taken, progress⟩ := exec_levelZero_passed (c := .snapshot) ready (by decide) (by decide) (by decide) domain level rfl
    exact ⟨_, taken, rfl, rfl, rfl, progress⟩
  case completion =>
    intro d
    rw [exec_commandCompletion, execCommandCompletion_of_awaitsCompletion awaits rfl]
    refine ⟨fun copies => ?_, fun reinits => ⟨_, rfl, ?_⟩⟩
    · rw [copies, if_neg Bool.false_ne_true, domainDone_of_attending_eq (d := d) (awaitsCompletion_running awaits) rfl, setDomain_domainAt]
      rfl
    · rw [reinits, if_pos rfl]
      have done := domainDone_completedWith s f.domain.toNat d.reinit
      rw [State.completedWith] at done
      rw [done]
      rfl

/-! ### CLEAR_CONDITIONS (R139) -/

/-- The bit of a condition in a condition set (Table 11-7). -/
def Condition.position : Condition → Nat
  | .denied => 7 | .stale => 6 | .held => 5 | .full => 4 | .miss => 3 | .half => 2 | .wrap => 1 | .aged => 0

theorem inSet_eq_getLsbD (set : BitVec 8) (c : Condition) : inSet set c = set.getLsbD c.position := by
  revert set
  cases c <;> decide

theorem inSet_removed (sticky set : BitVec 8) (c : Condition) :
    inSet (sticky &&& ~~~set) c = (inSet sticky c && !inSet set c) := by
  have inside : c.position < 8 := by cases c <;> decide
  simp only [inSet_eq_getLsbD, BitVec.getLsbD_and, BitVec.getLsbD_not, inside, decide_true, Bool.true_and]

/-- Settles O43: the members named by the value's low byte leave STICKY. -/
theorem clearConditionsRemovesTheNamedMembers : Obligations.ClearConditionsRemovesTheNamedMembers := by
  unfold Obligations.ClearConditionsRemovesTheNamedMembers
  refine ⟨fun o s ready level => ?denied, fun o s ready domain level => ?passed, fun s f awaits => ?completion⟩
  case denied => exact exec_levelZero_denied (c := .clearConditions) ready (by decide) (by decide) (by decide) rfl level
  case passed =>
    obtain ⟨taken, progress⟩ :=
      exec_levelZero_passed (c := .clearConditions) ready (by decide) (by decide) (by decide) domain level rfl
    exact ⟨_, taken, rfl, rfl, rfl, progress⟩
  case completion =>
    intro d
    have low : field f.value 0 8 = f.value.setWidth 8 := BitVec.eq_of_toNat_eq (by rw [field_low_byte, BitVec.toNat_setWidth])
    refine ⟨_, d.clearConditions (field f.value 0 8), execCommandCompletion_of_awaitsCompletion awaits rfl, rfl, fun c => ?_,
      domainDone_completedWith ..⟩
    rw [← low]
    exact inSet_removed ..

end Sys2Proof.Machine
end

section
/-! PROOFS. Attention: the summary, the line, and where pulses start and end (R134 to R138). -/

namespace Sys2Proof.Machine

/-! ### The summary (R134 to R136) -/

theorem ne_zero_iff_getLsbD {w : Nat} (x : BitVec w) : x ≠ 0 ↔ ∃ j, j < w ∧ x.getLsbD j = true := by
  refine ⟨fun nonzero => ?_, ?_⟩
  · by_contra none
    refine nonzero (BitVec.eq_of_getLsbD_eq fun j hj => ?_)
    simpa using fun member => none ⟨j, hj, member⟩
  · rintro ⟨j, _, member⟩ rfl
    simp at member

theorem position_lt (c : Condition) : c.position < 8 := by cases c <;> decide

/-- Every bit of a condition set is a condition's (Table 11-7). -/
theorem exists_position {j : Nat} (hj : j < 8) : ∃ c : Condition, c.position = j := by
  interval_cases j
  · exact ⟨.aged, rfl⟩
  · exact ⟨.wrap, rfl⟩
  · exact ⟨.half, rfl⟩
  · exact ⟨.miss, rfl⟩
  · exact ⟨.full, rfl⟩
  · exact ⟨.held, rfl⟩
  · exact ⟨.stale, rfl⟩
  · exact ⟨.denied, rfl⟩

theorem ne_zero_iff_inSet (set : BitVec 8) : set ≠ 0 ↔ ∃ c : Condition, inSet set c = true := by
  simp only [ne_zero_iff_getLsbD, inSet_eq_getLsbD]
  refine ⟨fun ⟨j, hj, member⟩ => ?_, fun ⟨c, member⟩ => ⟨_, position_lt c, member⟩⟩
  obtain ⟨c, rfl⟩ := exists_position hj
  exact ⟨c, member⟩

theorem attending_iff (d : DomainRecord) : d.attending = true ↔
    d.restoring = false ∧ ∃ c : Condition, inSet d.sticky c = true ∧ inSet d.desc.mask c = false := by
  simp only [DomainRecord.attending, Bool.and_eq_true, Bool.not_eq_true', bne_iff_ne, ne_zero_iff_inSet, inSet_removed]

theorem unmasked_device_iff (sticky mask : BitVec 3) : (sticky &&& ~~~mask != 0) = true ↔
    ∃ j, j < 3 ∧ sticky.getLsbD j = true ∧ mask.getLsbD j = false := by
  rw [bne_iff_ne, ne_zero_iff_getLsbD]
  refine exists_congr fun j => and_congr_right fun hj => ?_
  simp only [BitVec.getLsbD_and, BitVec.getLsbD_not, hj, decide_true, Bool.true_and, Bool.and_eq_true, Bool.not_eq_true']

theorem domainAttention_getLsbD (s : State) {n : Nat} (hn : n < 16) :
    s.domainAttention.getLsbD n = (s.domainAt n).attending := by
  rw [State.domainAttention, BitVec.getLsbD_setWidth, BitVec.getLsbD_ofBoolListLE]
  simp [State.domainAt, hn]

/-- Settles O45: S by its conditions, the line by mode and polarity. -/
theorem attentionSummaryAndLine : Obligations.AttentionSummaryAndLine := by
  unfold Obligations.AttentionSummaryAndLine
  intro s
  refine ⟨?summary, fun level => ?level, fun pulse => ?pulse, ?polarity, fun n hn => by rw [domainAttention_getLsbD s hn]⟩
  case summary =>
    simp only [State.summary, Bool.and_eq_true, Bool.or_eq_true, Bool.not_eq_true', any_attending_iff, attending_iff,
      unmasked_device_iff]
  case level => simp only [State.attnAsserted, level, State.enabledSummary, Bool.and_eq_true]
  case pulse => simp only [State.attnAsserted, pulse]
  case polarity =>
    unfold State.attnHigh
    cases s.attnPolarity <;> simp

/-! ### Pulses (R137, R138) -/

/-- An event after which ATTN has been judged: outside PULSE mode no pulse starts, and in it a pulse is in progress exactly when one was
or the enabled summary has risen. -/
structure AttnJudged (s t : State) : Prop where
  level : PulseInvariant s → PulseInvariant t
  rises : t.attnMode = .pulse → (t.pulse = true ↔ s.pulse = true ∨ (t.enabledSummary = true ∧ s.enabledSummary = false))

/-- An event that leaves the mode, the pulse and the enabled summary. -/
theorem AttnJudged.quiet {s t : State} (mode : t.attnMode = s.attnMode) (pulse : t.pulse = s.pulse)
    (enabled : t.enabledSummary = s.enabledSummary) : AttnJudged s t where
  level inv := by rwa [PulseInvariant, mode, pulse]
  rises _ := by
    rw [pulse, enabled]
    exact ⟨.inl, Or.rec id fun ⟨after, before⟩ => by rw [before] at after; cases after⟩

theorem judgeFrom_enabledSummary (before s : State) : (before.judgeFrom s).enabledSummary = s.enabledSummary := by
  unfold State.judgeFrom
  split <;> rfl

theorem judgeFrom_pulse (before s : State) : (before.judgeFrom s).pulse = true ↔
    s.pulse = true ∨ (s.attnMode = .pulse ∧ s.enabledSummary = true ∧ before.enabledSummary = false) := by
  unfold State.judgeFrom
  split
  · next rise => simp only [rise, and_self, or_true]
  · next still => simp only [still, or_false]

/-- An event that ends with ATTN judged. -/
theorem AttnJudged.judged {s u : State} (mode : u.attnMode = s.attnMode) (pulse : u.pulse = s.pulse) :
    AttnJudged s (s.judgeFrom u) where
  level inv := by
    intro progress
    rw [judgeFrom_attnMode]
    obtain before | rise := (judgeFrom_pulse s u).mp progress
    · rw [mode]; exact inv (pulse ▸ before)
    · exact rise.1
  rises isPulse := by
    rw [judgeFrom_attnMode] at isPulse
    rw [judgeFrom_pulse, judgeFrom_enabledSummary, pulse]
    simp only [isPulse, true_and]

/-- What an event does after ATTN has been judged, away from the line and the summary. -/
theorem AttnJudged.trans_quiet {s t u : State} (judged : AttnJudged s t) (mode : u.attnMode = t.attnMode) (pulse : u.pulse = t.pulse)
    (enabled : u.enabledSummary = t.enabledSummary) : AttnJudged s u where
  level inv := by rw [PulseInvariant, mode, pulse]; exact judged.level inv
  rises isPulse := by rw [pulse, enabled]; exact judged.rises (mode ▸ isPulse)

/-- The enabled summary depends on ATTN_ENABLE, INIT, the domains that attend and the device conditions alone (R135, R136). -/
theorem enabledSummary_congr {s t : State} (enable : t.attnEnable = s.attnEnable) (init : t.inInit = s.inInit)
    (sticky : t.deviceSticky = s.deviceSticky) (mask : t.deviceMask = s.deviceMask)
    (attends : ∀ n, n < 16 → (t.domainAt n).attending = (s.domainAt n).attending) : t.enabledSummary = s.enabledSummary := by
  rw [State.enabledSummary, State.enabledSummary, enable, summary_congr init sticky mask attends]

/-- An event of the Command Engine that leaves the pulse and what attends. -/
theorem AttnJudged.of_command {s t : State} (same : CommandFrame s t) (pulse : t.pulse = s.pulse)
    (attends : ∀ n, n < 16 → (t.domainAt n).attending = (s.domainAt n).attending) : AttnJudged s t := by
  obtain ⟨before, after, rest⟩ := same
  refine .quiet (by rw [rest]) pulse (enabledSummary_congr (by rw [rest]) (by rw [before, after]) (by rw [rest]) (by rw [rest]) attends)

/-- A pass issue that ends writes CURSOR alone in its domain's record. -/
theorem PassedOn.attending {g t : State} {f : InFlight} (passed : PassedOn g f t) (n : Nat) :
    (t.domainAt n).attending = (g.domainAt n).attending := by
  cases passed with
  | ended =>
    rw [domainAt_passDone]
    split
    · next same => rw [← same.1]; rfl
    · rfl
  | next => exact congrArg _ (domainAt_congr rfl n)

theorem PassedOn.pulse {g t : State} {f : InFlight} (passed : PassedOn g f t) : t.pulse = g.pulse := by
  cases passed <;> rfl

theorem visitSlot_pulse (s : State) (sweep : Bool) (f : InFlight) (o v x : Nat) : (s.visitSlot sweep f o v x).pulse = s.pulse := by
  obtain ⟨g, granted, passed⟩ := visitSlot_passedOn s sweep f o v x
  rw [passed.pulse]
  obtain rfl | ⟨i, rfl⟩ := granted <;> rfl

theorem visitSlot_attending (s : State) (sweep : Bool) (f : InFlight) (o v x n : Nat) :
    ((s.visitSlot sweep f o v x).domainAt n).attending = (s.domainAt n).attending := by
  obtain ⟨g, granted, passed⟩ := visitSlot_passedOn s sweep f o v x
  rw [passed.attending]
  obtain rfl | ⟨i, rfl⟩ := granted
  · rw [domainAt_grant]
  · rw [domainAt_setSlot, domainAt_grant]

theorem domainDone_attnJudged (s : State) (n : Nat) (d : DomainRecord) : AttnJudged s (s.domainDone n d) := .judged rfl rfl

/-- The end of a pass that made no visit. -/
theorem passDone_attnJudged {s : State} {f : InFlight} (busy : s.engine = .busy f) (code : ResultCode) (h : Handle)
    (cursor : Option Cursor) (count : Nat) : AttnJudged s (s.passDone f.domain.toNat code h cursor count) :=
  .of_command ⟨inInit_of_engine_busy busy, rfl, rfl⟩ rfl fun n _ => (PassedOn.ended code h cursor count).attending n

theorem completionOf_attnJudged {s t : State} {f : InFlight} {k : Command} (busy : s.engine = .busy f)
    (completed : s.completionOf f k = some t) : AttnJudged s t := by
  cases k with
  | exchange | setState | counters | clearConditions => cases completed; exact domainDone_attnJudged ..
  | snapshot => cases completed; exact (domainDone_attnJudged ..).trans_quiet rfl rfl rfl
  | setDescriptor =>
    simp only [State.completionOf] at completed
    cases completed
    split
    · exact .of_command ⟨inInit_of_engine_busy busy, rfl, rfl⟩ rfl fun n _ => rfl
    · exact domainDone_attnJudged ..
  | scan | sweep => cases completed; exact passDone_attnJudged busy ..
  | restore | writeSlot | setVerdict | hold | release | confirm | pin | unpin | retire | readSlot | reset => cases completed

theorem take_attnJudged {s : State} (idle : s.engine = .idle) (c : Option Command) (o : Operands) : AttnJudged s (s.take c o) := by
  obtain ⟨_, e⟩ | ⟨_, _, e⟩ := take_cases s c o <;> rw [e]
  · exact .of_command ⟨inInit_of_engine_idle idle, rfl, rfl⟩ rfl fun n _ => rfl
  · exact .judged rfl rfl

/-- An event that sets the mode, ends the pulse in progress outside PULSE mode, and ends with ATTN judged (R138). -/
theorem AttnJudged.judged_mode {s u : State} (pulse : u.pulse = (s.pulse && decide (u.attnMode = .pulse))) :
    AttnJudged s (s.judgeFrom u) where
  level _ progress := by
    rw [judgeFrom_attnMode]
    obtain before | rise := (judgeFrom_pulse s u).mp progress
    · rw [pulse, Bool.and_eq_true, decide_eq_true_eq] at before
      exact before.2
    · exact rise.1
  rises isPulse := by
    rw [judgeFrom_attnMode] at isPulse
    rw [judgeFrom_pulse, judgeFrom_enabledSummary, pulse]
    simp only [isPulse, decide_true, Bool.and_true, true_and]

theorem writeControl_attnJudged (s : State) (d : Word) : AttnJudged s (s.writeControl d) := .judged_mode rfl

/-- The effect of a window write, a read or an edge of CS_N: away from the line and from what attends. -/
theorem AttnJudged.of_port {s t : State} (mode : t.attnMode = s.attnMode) (pulse : t.pulse = s.pulse)
    (enable : t.attnEnable = s.attnEnable) (engine : t.engine = s.engine) (sticky : t.deviceSticky = s.deviceSticky)
    (mask : t.deviceMask = s.deviceMask) (domains : t.domains = s.domains) : AttnJudged s t :=
  .quiet mode pulse (enabledSummary_congr enable (by rw [State.inInit, State.inInit, engine]) sticky mask fun n _ => by
    rw [domainAt_congr domains])

/-- Every event ends with ATTN judged, but for ATTN_PULSE_END. -/
theorem Shape.attnJudged {s t : State} {c : Instr} (shape : Shape s c t) : AttnJudged s t ∨
    (c = .attnPulseEnd ∧ t = { s with pulse := false }) := by
  cases shape with
  | pulseEnded => exact .inr ⟨rfl, rfl⟩
  | fullReset => exact .inl ⟨fun _ => nofun, nofun⟩
  | cleared => exact .inl (.judged rfl rfl)
  | turnedAway v d o => exact .inl ((AttnJudged.judged rfl rfl : AttnJudged s (s.raiseDevice d)).trans_quiet rfl rfl rfl)
  | searched r rest => exact .inl (.judged (by simp) (by simp))
  | overran => exact .inl (.judged rfl rfl)
  | walked w => exact .inl (.judged (by rw [walked_frame]) (by rw [walked_frame]))
  | refusedInInit | refusedBusy | released | linkAssert | linkRelease | notReady | admitted | headOff | headHeld | ticked
  | walkStarted | ageStepWritten | framed | windowWritten | same =>
    exact .inl (.of_port (by simp) (by simp) (by simp) (by simp) (by simp) (by simp) (by simp))
  | taken k o idle => exact .inl (take_attnJudged idle k o)
  | slotGranted k f grant busy =>
    obtain ⟨_, _, e⟩ | ⟨_, _, e⟩ := slotCommand_cases s k f <;> rw [e] <;>
      exact .inl (.of_command ⟨inInit_of_engine_busy busy, rfl, rfl⟩ rfl fun n _ => rfl)
  | visited sweep f o v x grant busy =>
    exact .inl (.of_command (visitSlot_commandFrame busy sweep o v x) (visitSlot_pulse ..) fun n _ => visitSlot_attending ..)
  | examined k f i grant busy =>
    exact .inl (.of_command (examineNext_commandFrame busy i) (by simp) fun n _ => by rw [domainAt_examineNext, domainAt_grant])
  | strandedDescriptor f i grant busy => exact .inl (.of_command ⟨inInit_of_engine_busy busy, rfl, rfl⟩ rfl fun n _ => rfl)
  | strandedRestore => exact .inl (.judged rfl rfl)
  | refusalCompleted f code busy => exact .inl (.of_command ⟨inInit_of_engine_busy busy, rfl, rfl⟩ rfl fun n _ => rfl)
  | completed f k t busy command progress effect => exact .inl (completionOf_attnJudged busy effect)
  | restored => exact .inl (domainDone_attnJudged ..)
  | controlWritten d => exact .inl ((writeControl_attnJudged s d).trans_quiet rfl rfl rfl)
  | conditionsWritten d => exact .inl ((AttnJudged.judged rfl rfl : AttnJudged s (s.writeDeviceConditions d)).trans_quiet rfl rfl rfl)
  | maskWritten d => exact .inl ((AttnJudged.judged rfl rfl : AttnJudged s (s.writeDeviceMask d)).trans_quiet rfl rfl rfl)

/-- Settles O44: every event but the pulse's end leaves ATTN judged (`Shape.attnJudged`). -/
theorem pulsesStartExactlyAtARise : Obligations.PulsesStartExactlyAtARise := by
  unfold Obligations.PulsesStartExactlyAtARise
  refine ⟨fun c s t event => ?event, fun s => ⟨fun progress => if_pos progress, fun none => ?noPulse⟩⟩
  case noPulse => exact if_neg (by rw [none]; decide)
  case event =>
    obtain ⟨level, rises⟩ | ⟨rfl, rfl⟩ := (exec_shape event).attnJudged
    · refine ⟨level, fun mode => ⟨fun before after => (rises mode).mpr (.inr ⟨after, before⟩), fun none progress => ?_,
        fun progress ended => ?_⟩⟩
      · obtain before | rise := (rises mode).mp progress
        · rw [none] at before; cases before
        · exact rise.symm
      · rw [(rises mode).mpr (.inl progress)] at ended; cases ended
    · refine ⟨fun _ => nofun, fun mode => ⟨fun before after => ?_, fun _ => nofun, fun _ _ => rfl⟩⟩
      have same : State.enabledSummary { s with pulse := false } = s.enabledSummary := rfl
      rw [same, before] at after
      cases after

end Sys2Proof.Machine
end

section
/-! PROOFS. The Management Port's register writes, reads, window writes, frame codes and edges (R29, R98, R133, R138, R176 to R179, R182,
R185, R188). -/

namespace Sys2Proof.Machine

/-! ### Register writes -/

section
variable {s : State} {effect : State → State}

theorem registerWrite_inInit (opened : s.frame = .opened .regWrite) (init : s.inInit = true) :
    registerWrite effect s = .next { s with frame := .ignoring } := by
  rw [registerWrite, inFrame_opened opened, if_pos init]

theorem registerWrite_running (opened : s.frame = .opened .regWrite) (running : s.inInit = false) :
    registerWrite effect s = .next { effect s with frame := .ignoring } := by
  rw [registerWrite, inFrame_opened opened, if_neg (by simp [running])]

theorem registerWrite_ignored (ignoring : s.frame = .ignoring) : registerWrite effect s = .next s := inFrame_ignoring ignoring
end

theorem exec_controlWrite (w : Word) (s : State) : exec (.controlWrite w) s = registerWrite (State.writeControl w) s := rfl

theorem exec_ageStepWrite (w : Word) (s : State) : exec (.ageStepWrite w) s = registerWrite (State.writeAgeStep w) s := rfl

theorem exec_deviceConditionsWrite (w : Word) (s : State) :
    exec (.deviceConditionsWrite w) s = registerWrite (State.writeDeviceConditions w) s := rfl

theorem exec_deviceMaskWrite (w : Word) (s : State) : exec (.deviceMaskWrite w) s = registerWrite (State.writeDeviceMask w) s := rfl

theorem exec_regWrite (a : Byte) (w : Word) (s : State) : exec (.regWrite a w) s = registerWrite (State.writeRegister a w) s := rfl

/-- An address that has no row of its own (R178). -/
theorem writeRegister_other {a : Byte} (other : a.toNat < 2 ∨ 5 < a.toNat) (w : Word) (s : State) : s.writeRegister a w = s := by
  have ne (k : Byte) (low : 2 ≤ k.toNat) (high : k.toNat ≤ 5) : a ≠ k := by rintro rfl; omega
  have event : regWriteEvent a w = .regWrite a w := by
    rw [regWriteEvent, if_neg (ne 2#8 (by decide) (by decide)), if_neg (ne 3#8 (by decide) (by decide)),
      if_neg (ne 4#8 (by decide) (by decide)), if_neg (ne 5#8 (by decide) (by decide))]
  rw [State.writeRegister, event]

/-- Outside PULSE mode a CONTROL write ends the pulse in progress (R138). -/
theorem writeControl_pulse_level (s : State) {w : Word} (level : w.getLsbD 1 = false) : (s.writeControl w).pulse = false := by
  rw [← Bool.not_eq_true]
  unfold State.writeControl
  rw [judgeFrom_pulse]
  simp only [level, Bool.false_eq_true, if_false, reduceCtorEq, decide_false, Bool.and_false, false_and, or_self, not_false_eq_true]

/-- Settles O46: each write in INIT, outside it, and where its bytes are ignored. -/
theorem registerWritesSetTheirFields : Obligations.RegisterWritesSetTheirFields := by
  unfold Obligations.RegisterWritesSetTheirFields
  intro w s
  simp only [exec_controlWrite, exec_ageStepWrite, exec_deviceConditionsWrite, exec_deviceMaskWrite, exec_regWrite]
  refine ⟨fun opened init a => ?init, fun opened running => ?running, fun ignoring a => ?ignored⟩
  case init =>
    exact ⟨registerWrite_inInit opened init, registerWrite_inInit opened init, registerWrite_inInit opened init,
      registerWrite_inInit opened init, registerWrite_inInit opened init⟩
  case ignored =>
    exact ⟨registerWrite_ignored ignoring, registerWrite_ignored ignoring, registerWrite_ignored ignoring,
      registerWrite_ignored ignoring, registerWrite_ignored ignoring⟩
  case running =>
    refine ⟨⟨_, registerWrite_running opened running, ?control, writeControl_pulse_level s⟩, registerWrite_running opened running,
      ⟨_, registerWrite_running opened running, ?conditions, fun j hj => ?members⟩,
      ⟨_, registerWrite_running opened running, ?mask⟩, fun a other => ?other⟩
    case control =>
      rw [State.writeControl, judgeFrom_eq]
    case conditions =>
      rw [State.writeDeviceConditions, judgeFrom_eq]
    case members =>
      change (s.writeDeviceConditions w).deviceSticky.getLsbD j = _
      rw [State.writeDeviceConditions, judgeFrom_deviceSticky]
      simp only [BitVec.getLsbD_and, BitVec.getLsbD_not, BitVec.getLsbD_extractLsb', hj, decide_true, Bool.true_and, Nat.zero_add]
    case mask =>
      rw [State.writeDeviceMask, judgeFrom_eq]
    case other => rw [registerWrite_running opened running, writeRegister_other other]

/-! ### Reads -/

/-- Settles O47: the read events by the frame in progress. -/
theorem readsSendAndClearFrameErrorAlone : Obligations.ReadsSendAndClearFrameErrorAlone := by
  unfold Obligations.ReadsSendAndClearFrameErrorAlone
  intro s
  refine ⟨fun a opened => ?address, fun a w reading => ?sent, fun selected => ?code, fun i w reading => ?summary,
    fun x y opened => ?header, fun x i w reading => ?word⟩
  case address => exact inFrame_opened opened
  case sent =>
    change execStatusRead .sent s = _
    simp only [execStatusRead, reading, clearFrameErrorIf_eq, ne_eq, decide_not, beq_eq_decide]
    rfl
  case code => exact if_pos selected
  case summary =>
    change execSummary .word s = _
    simp only [execSummary, reading, clearFrameErrorIf_eq, ne_eq, decide_not, beq_eq_decide]
    rfl
  case header => exact inFrame_opened opened
  case word =>
    change execWindowRead .word s = _
    simp only [execWindowRead, reading]
    rfl

/-! ### Window writes, frame codes and edges -/

theorem exec_windowWrite_word {s : State} {x : Byte} {i : Nat} (writing : s.frame = .windowWrite x i) (w : Word) :
    exec (.windowWrite (.word w)) s =
      if s.inInit = false ∧ writable x i = true then .next { s.writeWindow x i w with frame := .windowWrite x (i + 1) }
      else .next s := by
  change execWindowWrite (.word w) s = _
  simp only [execWindowWrite, writing]

theorem writable_iff (x : Byte) (i : Nat) : writable x i = true ↔ (x = 0 ∧ i < 16) ∨ (x = 1 ∧ i < 24) := by
  simp only [writable, Bool.or_eq_true, Bool.and_eq_true, decide_eq_true_eq]
  rfl

theorem writeWindow_binding (s : State) {i : Nat} (inside : i < 16) (w : Word) : s.writeWindow 0 i w =
    { s with stagingBinding := s.stagingBinding.setIfInBounds i (w &&& bindingPositions[i]) } := by
  rw [← wordAt_eq bindingPositions inside]
  rfl

theorem writeWindow_domain (s : State) {i : Nat} (inside : i < 24) (w : Word) : s.writeWindow 1 i w =
    { s with stagingDomain := s.stagingDomain.setIfInBounds i (w &&& domainPositions[i]) } := by
  rw [← wordAt_eq domainPositions inside]
  rfl

theorem exec_frameCode {s : State} (selected : s.frame = .selected) (code : Byte) :
    exec (.frameError (.code code)) s = .next (s.judgeCode code) := if_pos selected

/-- Codes above the six kinds, and 0, name no kind (Table 11-1). -/
theorem frameKindOf_none {code : Byte} (other : code.toNat = 0 ∨ 6 < code.toNat) : frameKindOf code = none := by
  have ne (k : Byte) (low : 1 ≤ k.toNat) (high : k.toNat ≤ 6) : code ≠ k := by rintro rfl; omega
  rw [frameKindOf, if_neg (ne 1#8 (by decide) (by decide)), if_neg (ne 2#8 (by decide) (by decide)),
    if_neg (ne 3#8 (by decide) (by decide)), if_neg (ne 4#8 (by decide) (by decide)), if_neg (ne 5#8 (by decide) (by decide)),
    if_neg (ne 6#8 (by decide) (by decide))]

theorem strayByte_ignoring {s : State} (ignoring : s.frame = .ignoring) : strayByte s = .next s := by
  simp only [strayByte, ignoring]

/-- Settles O48: a window write by its window and position; codes, edges and SDO by the frame in progress. -/
theorem windowWritesFrameCodesEdgesAndSdo : Obligations.WindowWritesFrameCodesEdgesAndSdo := by
  unfold Obligations.WindowWritesFrameCodesEdgesAndSdo
  intro s x i w
  refine ⟨fun y opened => inFrame_opened opened, fun writing running window inside => ?binding,
    fun writing running window inside => ?domain, fun writing out => ?discarded, fun idle => ?fall, fun p kind selected => ?kind,
    fun code other selected => ?unnamed, rfl, fun ignoring => ?ignored, ?notDriven, ?word⟩
  case binding =>
    subst window
    rw [exec_windowWrite_word writing, if_pos ⟨running, (writable_iff ..).mpr (.inl ⟨rfl, inside⟩)⟩, writeWindow_binding s inside]
  case domain =>
    subst window
    rw [exec_windowWrite_word writing, if_pos ⟨running, (writable_iff ..).mpr (.inr ⟨rfl, inside⟩)⟩, writeWindow_domain s inside]
  case discarded =>
    rw [exec_windowWrite_word writing, if_neg]
    rintro ⟨running, inside⟩
    obtain init | above | ⟨rfl, past⟩ | ⟨rfl, past⟩ := out
    · rw [running] at init; cases init
    · obtain ⟨rfl, _⟩ | ⟨rfl, _⟩ := (writable_iff ..).mp inside <;> revert above <;> decide
    · obtain ⟨_, before⟩ | ⟨window, _⟩ := (writable_iff ..).mp inside
      · omega
      · revert window; decide
    · obtain ⟨window, _⟩ | ⟨_, before⟩ := (writable_iff ..).mp inside
      · revert window; decide
      · omega
  case fall =>
    change execFrameError .fall s = _
    simp only [execFrameError, idle, if_true]
  case kind =>
    fin_cases kind <;> exact exec_frameCode selected _
  case unnamed => rw [exec_frameCode selected, State.judgeCode, frameKindOf_none other]
  case ignored =>
    have stray := strayByte_ignoring ignoring
    have notSelected : s.frame ≠ .selected := by rw [ignoring]; decide
    refine ⟨?_, ?_, fun w => ?_, ?_, fun a => inFrame_ignoring ignoring, fun y => inFrame_ignoring ignoring,
      fun y => inFrame_ignoring ignoring, (if_neg notSelected).trans stray, fun code => (if_neg notSelected).trans stray⟩
    · change execStatusRead .sent s = _
      simp only [execStatusRead, ignoring, stray]
    · change execWindowRead .word s = _
      simp only [execWindowRead, ignoring, stray]
    · change execWindowWrite (.word w) s = _
      simp only [execWindowWrite, ignoring, stray]
    · change execSummary .word s = _
      simp only [execSummary, ignoring, stray]
  case notDriven =>
    unfold State.sdo
    cases s.frame <;> simp
  case word =>
    unfold State.sdo
    cases s.frame <;> simp [eq_comm]

end Sys2Proof.Machine
end

section
/-! PROOFS. What the registers, the windows and the summary words show (R177 to R179, R182, R183, R185, R186; Tables 11-2, 11-3, 11-8). -/

namespace Sys2Proof.Machine

/-! ### Registers (Table 11-2) -/

theorem controlWord_toNat (s : State) : s.controlWord.toNat = s.linkLevel.toNat * 2 ^ 16 + s.summaryStart.toNat * 2 ^ 8 +
    (match s.attnPolarity with | .low => 0 | .high => 1) * 2 ^ 2 + (match s.attnMode with | .level => 0 | .pulse => 1) * 2 ^ 1 +
    s.attnEnable.toNat := by
  have polarity : s.attnPolarity.code.toNat = match s.attnPolarity with | .low => 0 | .high => 1 := by
    cases s.attnPolarity <;> rfl
  have mode : s.attnMode.code.toNat = match s.attnMode with | .level => 0 | .pulse => 1 := by cases s.attnMode <;> rfl
  unfold State.controlWord
  simp only [toNat_append_sum, toNat_bit, polarity, mode, BitVec.toNat_ofNat]
  omega

/-- An address above 7 names no register (R177). -/
theorem register_other (s : State) {a : Byte} (other : 7 < a.toNat) : s.register a = 0 := by
  have ne (k : Byte) (low : k.toNat ≤ 7) : a ≠ k := by rintro rfl; omega
  rw [State.register, if_neg (ne 0#8 (by decide)), if_neg (ne 1#8 (by decide)), if_neg (ne 2#8 (by decide)),
    if_neg (ne 3#8 (by decide)), if_neg (ne 4#8 (by decide)), if_neg (ne 5#8 (by decide)), if_neg (ne 6#8 (by decide)),
    if_neg (ne 7#8 (by decide))]

theorem register_domainAttention (s : State) (n : Nat) :
    (s.register 6).getLsbD n = (decide (n < 16) && (s.domainAt n).attending) := by
  change (s.domainAttention.setWidth 32).getLsbD n = _
  by_cases inside : n < 16
  · rw [BitVec.getLsbD_setWidth, domainAttention_getLsbD s inside, decide_eq_true inside, decide_eq_true (by omega)]
  · rw [BitVec.getLsbD_setWidth, BitVec.getLsbD_of_ge _ _ (by omega), decide_eq_false inside, Bool.and_false, Bool.false_and]

/-! ### RESULT (Table 11-8) -/

/-- The result codes in the order of Table 11-8. -/
def resultCodes : List ResultCode :=
  [.done, .found, .partialPass, .endOfPass, .unknownCommand, .badSlot, .denied, .notInSegment, .stale, .wrongState, .badRecord,
    .occupied, .overlap, .stranded, .domainOn, .staleCursor]

theorem resultCode_toNat (c : ResultCode) : c.code.toNat = resultCodes.idxOf c := by cases c <;> decide

theorem resultWord_code (r : Result) : (wordAt r.words 0).toNat =
    resultCodes.idxOf r.code * 2 ^ 24 + r.gen.toNat * 2 ^ 16 + r.slot % 2 ^ 16 := by
  change (r.code.code ++ r.gen ++ BitVec.ofNat 16 r.slot).toNat = _
  simp only [toNat_append_sum, resultCode_toNat, BitVec.toNat_ofNat]
  omega

theorem segmentName_toNat (n : SegmentName) : n.code.toNat = match n with | .active => 0 | .standby => 1 := by cases n <;> rfl

theorem resultWord_cursor (r : Result) : (wordAt r.words 1).toNat = match r.cursor with
    | none => 0
    | some c => 2 ^ 31 + (match c.segment with | .active => 0 | .standby => 1) * 2 ^ 30 + c.offset % 2 ^ 11 := by
  change (match r.cursor with | some c => 1#1 ++ c.segment.code ++ 0#19 ++ BitVec.ofNat 11 c.offset | none => (0 : Word)).toNat = _
  cases r.cursor with
  | none => rfl
  | some c =>
    change (1#1 ++ c.segment.code ++ 0#19 ++ BitVec.ofNat 11 c.offset).toNat = _
    simp only [toNat_append_sum, segmentName_toNat, BitVec.toNat_ofNat]
    omega

theorem resultWord_count (r : Result) : (wordAt r.words 2).toNat = r.count % 2 ^ 8 := by
  change (0#24 ++ BitVec.ofNat 8 r.count).toNat = _
  simp only [toNat_append_sum, BitVec.toNat_ofNat]
  omega

/-! ### Windows (Table 11-3) -/

/-- Past a window's last word, and in a window that no identifier names (R179). -/
theorem windowWord_past (s : State) {x : Byte} {i : Nat}
    (past : (16 ≤ i ∧ (x = 0 ∨ x = 2)) ∨ (24 ≤ i ∧ (x = 1 ∨ x = 3)) ∨ (4 ≤ i ∧ x = 4) ∨ 4 < x.toNat) : s.windowWord x i = 0 := by
  obtain ⟨above, rfl | rfl⟩ | ⟨above, rfl | rfl⟩ | ⟨above, rfl⟩ | other := past
  · exact shownBindingWord_past _ above
  · exact wordAt_past _ above
  · exact shownDomainWord_past _ above
  · exact wordAt_past _ above
  · exact wordAt_past _ above
  · have ne (k : Byte) (low : k.toNat ≤ 4) : x ≠ k := by rintro rfl; omega
    rw [State.windowWord, if_neg (ne 0#8 (by decide)), if_neg (ne 1#8 (by decide)), if_neg (ne 2#8 (by decide)),
      if_neg (ne 3#8 (by decide)), if_neg (ne 4#8 (by decide))]

/-! ### Summary words (R182) -/

theorem summaryWord_result (s : State) {i : Nat} (inside : i < 4) : s.summaryWord (i + 3) = s.windowWord 4 i := by
  rw [State.summaryWord, if_neg (by omega), if_neg (by omega), if_neg (by omega), if_pos (by omega), Nat.add_sub_cancel]
  rfl

theorem summaryWord_past (s : State) {i : Nat} (past : 7 < i) : s.summaryWord i = 0 := by
  rw [State.summaryWord, if_neg (by omega), if_neg (by omega), if_neg (by omega), if_neg (by omega), if_neg (by omega)]

/-- Settles O5: each register, window and summary word by its owner's layout. -/
theorem registersWindowsAndSummaryShowTheirOwners : Obligations.RegistersWindowsAndSummaryShowTheirOwners := by
  unfold Obligations.RegistersWindowsAndSummaryShowTheirOwners
  intro s codes
  refine ⟨rfl, statusWord_toNat s, controlWord_toNat s, ?ageStep, ?sticky, ?mask, register_domainAttention s, rfl,
    fun a other => register_other s other, resultWord_code s.result, resultWord_cursor s.result, resultWord_count s.result, rfl,
    fun i h => ⟨wordAt_eq _ h, shownBindingWord_eq _ h⟩, fun i h => ⟨wordAt_eq _ h, shownDomainWord_eq _ h⟩, by decide, by decide,
    fun x i past => windowWord_past s past, rfl, rfl, rfl, fun i inside => summaryWord_result s inside, rfl,
    fun i past => summaryWord_past s past⟩
  case ageStep => exact BitVec.toNat_setWidth_of_le (b := s.ageStep) (by decide : 8 ≤ 32)
  case sticky => exact BitVec.toNat_setWidth_of_le (b := s.deviceSticky) (by decide : 3 ≤ 32)
  case mask => exact BitVec.toNat_setWidth_of_le (b := s.deviceMask) (by decide : 3 ≤ 32)

end Sys2Proof.Machine
end

section
/-! PROOFS. COMMAND and REG_WRITE frames as bytes and as events (R176, R177, R181, R184). -/

namespace Sys2Proof.Machine

theorem wordOfBytes_toNat (b3 b2 b1 b0 : Byte) : (wordOfBytes b3 b2 b1 b0).toNat =
    b3.toNat * 2 ^ 24 + b2.toNat * 2 ^ 16 + b1.toNat * 2 ^ 8 + b0.toNat := by
  simp only [wordOfBytes, toNat_append_sum]
  omega

/-- The bytes of a word make that word again. -/
theorem wordOfBytes_bytes (w : Word) :
    wordOfBytes (w.extractLsb' 24 8) (w.extractLsb' 16 8) (w.extractLsb' 8 8) (w.extractLsb' 0 8) = w := by
  refine BitVec.eq_of_toNat_eq ?_
  have bound := w.isLt
  simp only [wordOfBytes_toNat, toNat_field, bitsAt]
  omega

/-! ### Opcodes (Table 11-4) -/

theorem commandOfOpcode_opcode (c : Command) : commandOfOpcode c.opcode = some c := by cases c <;> rfl

theorem commandOfOpcode_none {w : Byte} (unknown : ∀ c : Command, c.opcode ≠ w) : commandOfOpcode w = none := by
  simp only [commandOfOpcode, List.find?_eq_none, beq_iff_eq]
  exact fun c _ => unknown c

theorem commandEvent_opcode (c : Command) (o : Operands) : commandEvent c.opcode o = .ofCommand o c := by
  rw [commandEvent, commandOfOpcode_opcode]

theorem commandEvent_unknown {w : Byte} (unknown : ∀ c : Command, c.opcode ≠ w) (o : Operands) :
    commandEvent w o = .unknownCommand w o := by
  rw [commandEvent, commandOfOpcode_none unknown]

/-! ### Frames -/

/-- The operands of a COMMAND frame, from its bytes (R181). -/
theorem operands_of_bytes {r s1 s0 g d f3 f2 f1 f0 v3 v2 v1 v0 : Byte} {o : Operands} (rpl : o.rpl = r)
    (slot : o.slot.toNat = s1.toNat * 2 ^ 8 + s0.toNat) (gen : o.gen = g) (domain : o.domain = d)
    (flags : o.flags.toNat = f3.toNat * 2 ^ 24 + f2.toNat * 2 ^ 16 + f1.toNat * 2 ^ 8 + f0.toNat)
    (value : o.value.toNat = v3.toNat * 2 ^ 24 + v2.toNat * 2 ^ 16 + v1.toNat * 2 ^ 8 + v0.toNat) :
    ({ rpl := r, slot := s1 ++ s0, gen := g, domain := d, flags := wordOfBytes f3 f2 f1 f0
       value := wordOfBytes v3 v2 v1 v0 } : Operands) = o := by
  have slot_eq : s1 ++ s0 = o.slot := BitVec.eq_of_toNat_eq (by rw [toNat_append_sum, slot])
  have flags_eq : wordOfBytes f3 f2 f1 f0 = o.flags := BitVec.eq_of_toNat_eq (by rw [wordOfBytes_toNat, flags])
  have value_eq : wordOfBytes v3 v2 v1 v0 = o.value := BitVec.eq_of_toNat_eq (by rw [wordOfBytes_toNat, value])
  rw [slot_eq, flags_eq, value_eq, ← rpl, ← gen, ← domain]

/-- Settles O49: whole frames by their bytes, and frames cut short by the length of what was sent. -/
theorem commandAndRegisterFramesRoundTrip : Obligations.CommandAndRegisterFramesRoundTrip := by
  unfold Obligations.CommandAndRegisterFramesRoundTrip
  refine ⟨by decide, ?command, fun w o n cut => ?commandCut, fun a w more => ?regWrite, fun a w n cut => ?regWriteCut⟩
  case command =>
    intro w r s1 s0 g d f3 f2 f1 f0 v3 v2 v1 v0 more o rpl slot gen domain flags value
    refine ⟨commandEvent w o, ?_, fun c named => ?_, fun unknown => commandEvent_unknown unknown o⟩
    · rw [← operands_of_bytes rpl slot gen domain flags value]
      rfl
    · rw [← named, commandEvent_opcode]
  case commandCut => interval_cases n <;> rfl
  case regWrite =>
    have event : frameEvents (regWriteFrameBytes a w ++ more) = [.frameError .fall, .frameError (.code 0x02),
        regWriteEvent a (wordOfBytes (w.extractLsb' 24 8) (w.extractLsb' 16 8) (w.extractLsb' 8 8) (w.extractLsb' 0 8)),
        .frameEnd] := rfl
    rw [event, wordOfBytes_bytes]
    rfl
  case regWriteCut => interval_cases n <;> rfl

end Sys2Proof.Machine
end

section
/-! PROOFS. Domain records as words, and back (R37, R170, R175, R185; Table 11-7). -/

namespace Sys2Proof.Machine

/-! ### Verdicts and segments -/

theorem verdict_number (v : Verdict) :
    v.number = v.action.code.toNat * 2 ^ 24 + v.cls.toNat * 2 ^ 16 + v.group.toNat * 2 ^ 8 + v.mark.toNat := by
  obtain ⟨action, cls, group, mark⟩ := v
  cases action <;> rfl

theorem verdictWord_toNat (v : Verdict) : v.word.toNat = v.number := by
  rw [verdict_number]
  simp only [Verdict.word, toNat_append_sum, BitVec.toNat_ofNat]
  omega

theorem action_le (a : Action) : a.code.toNat ≤ 2 := by cases a <;> decide

theorem actionOf_code (a : Action) : actionOf a.code = a := by cases a <;> rfl

theorem actionOf_toNat {c : Byte} (valid : c.toNat ≤ 2) : (actionOf c).code = c := by
  have cases : c = 0 ∨ c = 1 ∨ c = 2 := by
    simp only [BitVec.toNat_eq]
    change c.toNat = 0 ∨ c.toNat = 1 ∨ c.toNat = 2
    omega
  obtain rfl | rfl | rfl := cases <;> rfl

/-- A verdict is read back from its word. -/
theorem verdictOf_word (v : Verdict) : verdictOf v.word = v := by
  have word : v.word.toNat = v.action.code.toNat * 2 ^ 24 + v.cls.toNat * 2 ^ 16 + v.group.toNat * 2 ^ 8 + v.mark.toNat := by
    rw [verdictWord_toNat, verdict_number]
  have code_eq : field v.word 24 8 = v.action.code := BitVec.eq_of_toNat_eq (by rw [toNat_field, bitsAt, word]; omega)
  have cls_eq : field v.word 16 3 = v.cls := BitVec.eq_of_toNat_eq (by rw [toNat_field, bitsAt, word]; omega)
  have group_eq : field v.word 8 6 = v.group := BitVec.eq_of_toNat_eq (by rw [toNat_field, bitsAt, word]; omega)
  have mark_eq : field v.word 0 8 = v.mark := BitVec.eq_of_toNat_eq (by rw [toNat_field, bitsAt, word]; omega)
  simp only [verdictOf, code_eq, cls_eq, group_eq, mark_eq, actionOf_code]

theorem verdictWord_valid (v : Verdict) : verdictValid v.word = true := by
  have action := action_le v.action
  rw [verdictValid_iff, badVerdict, bitsAt, bitsAt, bitsAt, verdictWord_toNat, verdict_number]
  omega

/-- A valid verdict's word holds nothing else than the verdict. -/
theorem verdictOf_number {w : Word} (valid : ¬ badVerdict w) : (verdictOf w).number = w.toNat := by
  rw [badVerdict, bitsAt, bitsAt, bitsAt] at valid
  have action : (field w 24 8).toNat ≤ 2 := by rw [toNat_field, bitsAt]; omega
  have bound := w.isLt
  simp only [verdict_number, verdictOf, actionOf_toNat action, toNat_field, bitsAt]
  omega

theorem segmentWord_toNat (g : Segment) : g.word.toNat = g.base % 2 ^ 16 * 2 ^ 16 + g.size % 2 ^ 16 := by
  simp only [Segment.word, toNat_append_sum, BitVec.toNat_ofNat]

theorem segmentOf_word {g : Segment} (bounds : g.inBounds = true) : segmentOf g.word = g := by
  simp only [Segment.inBounds, Bool.and_eq_true, decide_eq_true_eq] at bounds
  have base : (field g.word 16 16).toNat = g.base := by rw [toNat_field, bitsAt, segmentWord_toNat]; omega
  have size : (field g.word 0 16).toNat = g.size := by rw [toNat_field, bitsAt, segmentWord_toNat]; omega
  simp only [segmentOf, base, size]

/-! ### The words of a record -/

theorem domainState_toNat (st : DomainState) : st.code.toNat = match st with | .off => 0 | .on => 1 | .frozen => 2 := by
  cases st <;> rfl

section
variable (d : DomainRecord)

theorem domainWord_state : d.words[0].toNat = (match d.state with | .off => 0 | .on => 1 | .frozen => 2) * 2 ^ 24 := by
  change (d.state.code ++ 0#24).toNat = _
  simp only [toNat_append_sum, domainState_toNat, BitVec.toNat_ofNat]
  omega

theorem domainWord_sticky : d.words[1].toNat = d.sticky.toNat := by
  change (0#24 ++ d.sticky).toNat = _
  simp only [toNat_append_sum, BitVec.toNat_ofNat]
  omega

theorem domainWord_levels : d.words[2].toNat =
    d.desc.lookupLevel.toNat * 2 ^ 30 + d.desc.learnLevel.toNat * 2 ^ 28 + d.desc.editLevel.toNat * 2 ^ 26 +
      d.desc.learning.toNat * 2 ^ 11 + d.desc.autoRetire.toNat * 2 ^ 10 + d.desc.readClears.toNat * 2 ^ 9 +
      d.desc.countStop.toNat * 2 ^ 8 + d.desc.mask.toNat := by
  change (d.desc.lookupLevel ++ d.desc.learnLevel ++ d.desc.editLevel ++ 0#14 ++
    (bit d.desc.learning ++ bit d.desc.autoRetire ++ bit d.desc.readClears ++ bit d.desc.countStop) ++ d.desc.mask).toNat = _
  simp only [toNat_append_sum, toNat_bit, BitVec.toNat_ofNat]
  omega

theorem domainWord_periods12 : d.words[5].toNat = d.desc.period1.toNat * 2 ^ 16 + d.desc.period2.toNat := toNat_append_sum ..

theorem domainWord_periods34 : d.words[6].toNat = d.desc.period3.toNat * 2 ^ 16 + d.desc.period4.toNat := toNat_append_sum ..

theorem domainWord_provPeriod : d.words[7].toNat = d.desc.provPeriod.toNat * 2 ^ 16 := by
  change (d.desc.provPeriod ++ 0#16).toNat = _
  simp only [toNat_append_sum, BitVec.toNat_ofNat]
  omega
end

/-! ### Reading a record back (R170, R175) -/

theorem domainStateOf_word (st : DomainState) : domainStateOf st.code = some st := by cases st <;> rfl

/-- A flag of a word, by the bit it stands at. -/
theorem getLsbD_eq_of_bitsAt {w : Word} {i : Nat} {b : Bool} (bit : bitsAt w i 1 = b.toNat) : w.getLsbD i = b := by
  have number := (toNat_getLsbD w i).trans bit
  revert number
  cases w.getLsbD i <;> cases b <;> decide

theorem field_eq_of_bitsAt {w : Word} {lo len : Nat} {x : BitVec len} (bits : bitsAt w lo len = x.toNat) : field w lo len = x :=
  BitVec.eq_of_toNat_eq ((toNat_field w lo len).trans bits)

section
variable (d : DomainRecord)

theorem domainWord_segments : d.words[3] = d.desc.active.word ∧ d.words[4] = d.desc.standby.word := ⟨rfl, rfl⟩

theorem domainWord_verdicts : d.words[8] = d.desc.defaultVerdict.word ∧ d.words[9] = d.desc.provVerdict.word := ⟨rfl, rfl⟩

theorem countersOf_words : countersOf d.words = d.counters := rfl

/-- The fields of word 2 as they stand in it. -/
theorem levels_of_word : field d.words[2] 30 2 = d.desc.lookupLevel ∧ field d.words[2] 28 2 = d.desc.learnLevel ∧
    field d.words[2] 26 2 = d.desc.editLevel ∧ field d.words[2] 0 8 = d.desc.mask := by
  have learning := d.desc.learning.toNat_le
  have autoRetire := d.desc.autoRetire.toNat_le
  have readClears := d.desc.readClears.toNat_le
  have countStop := d.desc.countStop.toNat_le
  refine ⟨field_eq_of_bitsAt ?_, field_eq_of_bitsAt ?_, field_eq_of_bitsAt ?_, field_eq_of_bitsAt ?_⟩
  all_goals
    rw [bitsAt, domainWord_levels]
    omega

theorem flags_of_word : d.words[2].getLsbD 11 = d.desc.learning ∧ d.words[2].getLsbD 10 = d.desc.autoRetire ∧
    d.words[2].getLsbD 9 = d.desc.readClears ∧ d.words[2].getLsbD 8 = d.desc.countStop := by
  have learning := d.desc.learning.toNat_le
  have autoRetire := d.desc.autoRetire.toNat_le
  have readClears := d.desc.readClears.toNat_le
  have countStop := d.desc.countStop.toNat_le
  refine ⟨getLsbD_eq_of_bitsAt ?_, getLsbD_eq_of_bitsAt ?_, getLsbD_eq_of_bitsAt ?_, getLsbD_eq_of_bitsAt ?_⟩
  all_goals
    rw [bitsAt, domainWord_levels]
    omega

theorem periods_of_words : field d.words[5] 16 16 = d.desc.period1 ∧ field d.words[5] 0 16 = d.desc.period2 ∧
    field d.words[6] 16 16 = d.desc.period3 ∧ field d.words[6] 0 16 = d.desc.period4 ∧
    field d.words[7] 16 16 = d.desc.provPeriod := by
  refine ⟨field_eq_of_bitsAt ?_, field_eq_of_bitsAt ?_, field_eq_of_bitsAt ?_, field_eq_of_bitsAt ?_, field_eq_of_bitsAt ?_⟩
  · rw [bitsAt, domainWord_periods12]; omega
  · rw [bitsAt, domainWord_periods12]; omega
  · rw [bitsAt, domainWord_periods34]; omega
  · rw [bitsAt, domainWord_periods34]; omega
  · rw [bitsAt, domainWord_provPeriod]; omega

theorem state_of_word : field d.words[0] 24 8 = d.state.code := field_eq_of_bitsAt (by
  have word : d.words[0].toNat = d.state.code.toNat * 2 ^ 24 := by
    change (d.state.code ++ 0#24).toNat = _
    simp only [toNat_append_sum, BitVec.toNat_ofNat]
    omega
  rw [bitsAt, word]
  omega)

theorem sticky_of_word : field d.words[1] 0 8 = d.sticky := field_eq_of_bitsAt (by rw [bitsAt, domainWord_sticky]; omega)

variable {d} (active : d.desc.active.inBounds = true) (standby : d.desc.standby.inBounds = true)
include active standby

theorem descriptorOf_words : descriptorOf d.words = d.desc := by
  obtain ⟨active_word, standby_word⟩ := domainWord_segments d
  obtain ⟨default_word, prov_word⟩ := domainWord_verdicts d
  obtain ⟨lookup_eq, learn_eq, edit_eq, mask_eq⟩ := levels_of_word d
  obtain ⟨learning_eq, autoRetire_eq, readClears_eq, countStop_eq⟩ := flags_of_word d
  obtain ⟨period1_eq, period2_eq, period3_eq, period4_eq, provPeriod_eq⟩ := periods_of_words d
  simp only [descriptorOf, active_word, standby_word, segmentOf_word active, segmentOf_word standby, default_word, prov_word,
    verdictOf_word, lookup_eq, learn_eq, edit_eq, mask_eq, learning_eq, autoRetire_eq, readClears_eq, countStop_eq, period1_eq,
    period2_eq, period3_eq, period4_eq, provPeriod_eq]

theorem domainValid_words : domainValid d.words = true := by
  obtain ⟨active_word, standby_word⟩ := domainWord_segments d
  obtain ⟨default_word, prov_word⟩ := domainWord_verdicts d
  simp only [domainValid, descriptorValid, active_word, standby_word, segmentOf_word active, segmentOf_word standby, active, standby,
    default_word, prov_word, verdictWord_valid, state_of_word, domainStateOf_word, Option.isSome_some, Bool.and_true]

theorem restoredRecordOf_words : restoredRecordOf d.words = { d with cursor := none, restoring := false } := by
  simp only [restoredRecordOf, descriptorOf_words active standby, countersOf_words, state_of_word, sticky_of_word, domainStateOf_word,
    Option.getD_some]
end

/-- Settles O50: the words by their fields, a descriptor by its words' bits, and the two back to back. -/
theorem domainRecordLayoutAndRoundTrip : Obligations.DomainRecordLayoutAndRoundTrip := by
  unfold Obligations.DomainRecordLayoutAndRoundTrip
  refine ⟨fun d => ?words, fun set => ?members, fun v => ?fields, fun d active standby =>
    ⟨domainValid_words active standby, restoredRecordOf_words active standby⟩⟩
  case words =>
    exact ⟨domainWord_state d, domainWord_sticky d, domainWord_levels d, segmentWord_toNat _, segmentWord_toNat _,
      domainWord_periods12 d, domainWord_periods34 d, domainWord_provPeriod d, verdictWord_toNat _, verdictWord_toNat _, rfl, rfl⟩
  case members => simp only [List.map_cons, List.map_nil, inSet_eq_getLsbD, Condition.position]
  case fields =>
    have segment (w : Word) : segmentOf w = ⟨bitsAt w 16 16, bitsAt w 0 16⟩ := by simp only [segmentOf, toNat_field]
    exact ⟨segment _, segment _, toNat_field .., toNat_field .., toNat_field .., toNat_getLsbD .., toNat_getLsbD ..,
      toNat_getLsbD .., toNat_getLsbD .., toNat_field .., toNat_field .., toNat_field .., toNat_field .., toNat_field ..,
      toNat_field .., verdictOf_number, verdictOf_number, rfl, toNat_field .., rfl⟩

end Sys2Proof.Machine
end

section
/-! PROOFS. Binding records as words, and back (R48, R154, R185; Table 11-6). -/

namespace Sys2Proof.Machine

/-! ### The fields of an optional part -/

/-- The first and the last port that a record's words show (R185). -/
def portFields (p : Option Ports) : BitVec 16 × BitVec 16 := match p with | some p => (p.lo, p.hi) | none => (0, 0)

theorem words128_toNat (a : BitVec 128) :
    (a.extractLsb' 96 32).toNat * 2 ^ 96 + (a.extractLsb' 64 32).toNat * 2 ^ 64 + (a.extractLsb' 32 32).toNat * 2 ^ 32 +
      (a.extractLsb' 0 32).toNat = a.toNat := by
  have bound := a.isLt
  simp only [BitVec.extractLsb'_toNat, Nat.shiftRight_eq_div_pow]
  omega

theorem bits128_toNat (w4 w5 w6 w7 : Word) :
    (bits128 w4 w5 w6 w7).toNat = w4.toNat * 2 ^ 96 + w5.toNat * 2 ^ 64 + w6.toNat * 2 ^ 32 + w7.toNat := by
  simp only [bits128, toNat_append_sum]
  omega

theorem bits128_words (a : BitVec 128) :
    bits128 (a.extractLsb' 96 32) (a.extractLsb' 64 32) (a.extractLsb' 32 32) (a.extractLsb' 0 32) = a :=
  BitVec.eq_of_toNat_eq (by rw [bits128_toNat, words128_toNat])

/-- A network address is read back from its FAMILY and its words (R47, R48). -/
theorem netAddressOf_words (a : NetAddress) : netAddressOf a.family (a.bits.extractLsb' 96 32) (a.bits.extractLsb' 64 32)
    (a.bits.extractLsb' 32 32) (a.bits.extractLsb' 0 32) = a := by
  cases a with
  | v4 a =>
    have first : (a ++ 0#96).extractLsb' 96 32 = a := by
      refine BitVec.eq_of_toNat_eq ?_
      simp only [BitVec.extractLsb'_toNat, Nat.shiftRight_eq_div_pow, toNat_append_sum, BitVec.toNat_ofNat]
      omega
    exact congrArg NetAddress.v4 first
  | v6 a => exact congrArg NetAddress.v6 (bits128_words a)

theorem family_le (a : NetAddress) : a.family.toNat ≤ 1 := by cases a <;> simp [NetAddress.family]

/-! ### The words of a record -/

theorem level_toNat (l : Level) : l.code.toNat = l.depth := by cases l <;> rfl

section
variable (r : Slot)

theorem bindingWord_state : r.words[0].toNat =
    r.state.code.toNat * 2 ^ 24 + r.gen.toNat * 2 ^ 16 + r.domain.toNat * 2 ^ 8 + r.level.depth := by
  change (r.state.code ++ r.gen ++ (0#4 ++ r.domain) ++ (0#6 ++ r.level.code)).toNat = _
  simp only [toNat_append_sum, level_toNat, BitVec.toNat_ofNat]
  omega

theorem bindingWord_flags : r.words[1].toNat = r.role.code.toNat * 2 ^ 24 + r.addrMask.toNat * 2 ^ 16 +
    r.net.isSome.toNat * 2 ^ 15 + r.ports.isSome.toNat * 2 ^ 14 + r.proto.isSome.toNat * 2 ^ 13 +
    (netFields r.net).2.2.1.toNat * 2 ^ 12 + r.pinned.toNat * 2 ^ 11 + r.learned.toNat * 2 ^ 10 +
    r.readPending.toNat * 2 ^ 9 + (r.proto.getD 0).toNat := by
  change (r.role.code ++ (0#2 ++ r.addrMask) ++
    (bit r.net.isSome ++ bit r.ports.isSome ++ bit r.proto.isSome ++ bit (netFields r.net).2.2.1 ++ bit r.pinned ++ bit r.learned ++
      bit r.readPending ++ 0#1) ++ r.proto.getD 0).toNat = _
  simp only [toNat_append_sum, toNat_bit, BitVec.toNat_ofNat]
  omega

theorem bindingWord_addr : r.words[2].toNat =
    r.addr.a0.toNat * 2 ^ 24 + r.addr.a1.toNat * 2 ^ 16 + r.addr.a2.toNat * 2 ^ 8 + r.addr.a3.toNat := by
  change (r.addr.a0 ++ r.addr.a1 ++ r.addr.a2 ++ r.addr.a3).toNat = _
  simp only [toNat_append_sum]
  omega

theorem bindingWord_family : r.words[3].toNat = r.addr.a4.toNat * 2 ^ 24 + r.addr.a5.toNat * 2 ^ 16 +
    ((netFields r.net).1.toNat * 2 ^ 8 + (netFields r.net).2.1.toNat) := by
  change (r.addr.a4 ++ r.addr.a5 ++ (netFields r.net).1 ++ (netFields r.net).2.1).toNat = _
  simp only [toNat_append_sum]
  omega

theorem bindingWords_net : r.words[4] = (netFields r.net).2.2.2.extractLsb' 96 32 ∧
    r.words[5] = (netFields r.net).2.2.2.extractLsb' 64 32 ∧ r.words[6] = (netFields r.net).2.2.2.extractLsb' 32 32 ∧
    r.words[7] = (netFields r.net).2.2.2.extractLsb' 0 32 := ⟨rfl, rfl, rfl, rfl⟩

theorem bindingWord_ports : r.words[8].toNat = (portFields r.ports).1.toNat * 2 ^ 16 + (portFields r.ports).2.toNat := by
  change ((portFields r.ports).1 ++ (portFields r.ports).2).toNat = _
  exact toNat_append_sum ..

theorem bindingWord_verdict : r.words[9] = r.verdict.word := rfl

theorem bindingWord_idle : r.words[10].toNat = r.idle.toNat := by
  change (0#16 ++ r.idle).toNat = _
  simp only [toNat_append_sum, BitVec.toNat_ofNat]
  omega

theorem bindingWord_octets : r.words[12].toNat = r.octets.toNat / 2 ^ 32 ∧ r.words[13].toNat = r.octets.toNat % 2 ^ 32 := by
  have bound := r.octets.isLt
  change (0#24 ++ r.octets.extractLsb' 32 8).toNat = _ ∧ (r.octets.extractLsb' 0 32).toNat = _
  simp only [toNat_append_sum, BitVec.toNat_ofNat, BitVec.extractLsb'_toNat, Nat.shiftRight_eq_div_pow]
  omega
end

/-! ### Reading a record back (R48, R185) -/

theorem role_le (x : Role) : x.code.toNat ≤ 2 := by cases x <;> decide

theorem roleOf_code (x : Role) : roleOf x.code = x := by cases x <;> rfl

/-- The Boolean fields of word 1 are bits. -/
theorem flags_le (r : Slot) : (r.net.isSome.toNat ≤ 1 ∧ r.ports.isSome.toNat ≤ 1 ∧ r.proto.isSome.toNat ≤ 1) ∧
    (netFields r.net).2.2.1.toNat ≤ 1 ∧ r.pinned.toNat ≤ 1 ∧ r.learned.toNat ≤ 1 ∧ r.readPending.toNat ≤ 1 :=
  ⟨⟨Bool.toNat_le _, Bool.toNat_le _, Bool.toNat_le _⟩, Bool.toNat_le _, Bool.toNat_le _, Bool.toNat_le _, Bool.toNat_le _⟩

section
variable (r : Slot)

theorem state_of_bindingWord : field r.words[0] 24 8 = r.state.code := field_eq_of_bitsAt (by
  have depth : r.level.depth ≤ 3 := by cases r.level <;> decide
  rw [bitsAt, bindingWord_state]
  omega)

theorem flags_of_bindingWord : netPresent r.words[1] = r.net.isSome ∧ portsPresent r.words[1] = r.ports.isSome ∧
    protoPresent r.words[1] = r.proto.isSome ∧ r.words[1].getLsbD 12 = (netFields r.net).2.2.1 ∧
    r.words[1].getLsbD 11 = r.pinned := by
  obtain ⟨⟨net, ports, proto⟩, invert, pinned, learned, readPending⟩ := flags_le r
  refine ⟨getLsbD_eq_of_bitsAt ?_, getLsbD_eq_of_bitsAt ?_, getLsbD_eq_of_bitsAt ?_, getLsbD_eq_of_bitsAt ?_,
    getLsbD_eq_of_bitsAt ?_⟩
  all_goals
    rw [bitsAt, bindingWord_flags]
    omega

theorem fields_of_bindingWord : field r.words[1] 24 8 = r.role.code ∧ field r.words[1] 16 6 = r.addrMask ∧
    field r.words[1] 0 8 = r.proto.getD 0 := by
  obtain ⟨⟨net, ports, proto⟩, invert, pinned, learned, readPending⟩ := flags_le r
  have role := role_le r.role
  refine ⟨field_eq_of_bitsAt ?_, field_eq_of_bitsAt ?_, field_eq_of_bitsAt ?_⟩
  all_goals
    rw [bitsAt, bindingWord_flags]
    omega

theorem family_of_bindingWord :
    field r.words[3] 8 8 = (netFields r.net).1 ∧ field r.words[3] 0 8 = (netFields r.net).2.1 := by
  refine ⟨field_eq_of_bitsAt ?_, field_eq_of_bitsAt ?_⟩
  all_goals
    rw [bitsAt, bindingWord_family]
    omega

theorem ports_of_bindingWord :
    field r.words[8] 16 16 = (portFields r.ports).1 ∧ field r.words[8] 0 16 = (portFields r.ports).2 := by
  refine ⟨field_eq_of_bitsAt ?_, field_eq_of_bitsAt ?_⟩
  all_goals
    rw [bitsAt, bindingWord_ports]
    omega

theorem addrOf_bindingWords : addrOf r.words[2] r.words[3] = r.addr := by
  have a0 : field r.words[2] 24 8 = r.addr.a0 := field_eq_of_bitsAt (by rw [bitsAt, bindingWord_addr]; omega)
  have a1 : field r.words[2] 16 8 = r.addr.a1 := field_eq_of_bitsAt (by rw [bitsAt, bindingWord_addr]; omega)
  have a2 : field r.words[2] 8 8 = r.addr.a2 := field_eq_of_bitsAt (by rw [bitsAt, bindingWord_addr]; omega)
  have a3 : field r.words[2] 0 8 = r.addr.a3 := field_eq_of_bitsAt (by rw [bitsAt, bindingWord_addr]; omega)
  have a4 : field r.words[3] 24 8 = r.addr.a4 := field_eq_of_bitsAt (by rw [bitsAt, bindingWord_family]; omega)
  have a5 : field r.words[3] 16 8 = r.addr.a5 := field_eq_of_bitsAt (by rw [bitsAt, bindingWord_family]; omega)
  simp only [addrOf, a0, a1, a2, a3, a4, a5]

/-- The network address that the words of a record with a NET part give. -/
theorem netAddressOf_bindingWords {n : NetPart} (present : r.net = some n) :
    netAddressOf (field r.words[3] 8 8) r.words[4] r.words[5] r.words[6] r.words[7] = n.address := by
  obtain ⟨w4, w5, w6, w7⟩ := bindingWords_net r
  rw [(family_of_bindingWord r).1, w4, w5, w6, w7, present]
  exact netAddressOf_words n.address

theorem bindingOf_words_net : (bindingOf r.words).net = r.net := by
  obtain ⟨netFlag, _, _, invert, _⟩ := flags_of_bindingWord r
  cases present : r.net with
  | none => exact if_neg (by rw [netFlag, present]; decide)
  | some n =>
    refine (if_pos (by rw [netFlag, present]; rfl)).trans ?_
    rw [netAddressOf_bindingWords r present, (family_of_bindingWord r).2, invert, present]
    rfl

theorem bindingOf_words_ports : (bindingOf r.words).ports = r.ports := by
  obtain ⟨_, portsFlag, _⟩ := flags_of_bindingWord r
  obtain ⟨lo, hi⟩ := ports_of_bindingWord r
  cases present : r.ports with
  | none => exact if_neg (by rw [portsFlag, present]; decide)
  | some p =>
    refine (if_pos (by rw [portsFlag, present]; rfl)).trans ?_
    rw [lo, hi, present]
    rfl

theorem bindingOf_words_proto : (bindingOf r.words).proto = r.proto := by
  obtain ⟨_, _, protoFlag, _⟩ := flags_of_bindingWord r
  cases present : r.proto with
  | none => exact if_neg (by rw [protoFlag, present]; decide)
  | some p =>
    refine (if_pos (by rw [protoFlag, present]; rfl)).trans ?_
    rw [(fields_of_bindingWord r).2.2, present]
    rfl

theorem bindingOf_words (state : r.state = .live ∨ r.state = .held) : bindingOf r.words =
    { state := r.state, pinned := r.pinned, addr := r.addr, addrMask := r.addrMask, role := r.role, net := r.net, ports := r.ports
      proto := r.proto, verdict := r.verdict } := by
  obtain ⟨_, _, _, _, pinned⟩ := flags_of_bindingWord r
  obtain ⟨role, mask, _⟩ := fields_of_bindingWord r
  have requested : requestedStateOf r.state.code = r.state := by obtain h | h := state <;> rw [h] <;> rfl
  have parts : bindingOf r.words =
      { state := requestedStateOf (field r.words[0] 24 8), pinned := r.words[1].getLsbD 11, addr := addrOf r.words[2] r.words[3]
        addrMask := field r.words[1] 16 6, role := roleOf (field r.words[1] 24 8), net := (bindingOf r.words).net
        ports := (bindingOf r.words).ports, proto := (bindingOf r.words).proto, verdict := verdictOf r.words[9] } := rfl
  rw [parts, state_of_bindingWord, requested, pinned, addrOf_bindingWords, mask, role, roleOf_code, bindingOf_words_net,
    bindingOf_words_ports, bindingOf_words_proto, bindingWord_verdict, verdictOf_word]

variable {r} in
theorem bindingValid_words (state : r.state = .live ∨ r.state = .held) (wellFormed : r.wellFormed = true) :
    bindingValid r.words = true := by
  obtain ⟨netFlag, portsFlag, _⟩ := flags_of_bindingWord r
  obtain ⟨role, _⟩ := fields_of_bindingWord r
  obtain ⟨lo, hi⟩ := ports_of_bindingWord r
  obtain ⟨_, _, netOk, portsOk⟩ := (wellFormed_iff r).mp wellFormed
  have stateOk : r.state.code = 2 ∨ r.state.code = 3 := state.imp (fun h => by rw [h]; rfl) (fun h => by rw [h]; rfl)
  simp only [bindingValid, Bool.and_eq_true, Bool.or_eq_true, Bool.not_eq_true', decide_eq_true_eq, beq_iff_eq, role, netFlag,
    portsFlag, lo, hi, bindingWord_verdict, verdictWord_valid, state_of_bindingWord]
  refine ⟨⟨⟨⟨role_le r.role, ?net⟩, ?ports⟩, trivial⟩, stateOk⟩
  case net =>
    cases present : r.net with
    | none => exact .inl rfl
    | some n =>
      rw [netAddressOf_bindingWords r present, (family_of_bindingWord r).1, (family_of_bindingWord r).2, present]
      rw [present] at netOk
      exact .inr ⟨family_le n.address, of_decide_eq_true netOk⟩
  case ports =>
    cases present : r.ports with
    | none => exact .inl rfl
    | some p =>
      rw [present] at portsOk
      exact .inr (of_decide_eq_true portsOk)
end

/-! ### The bits of a staging record (Table 11-6) -/

theorem not_badBinding {v : Vector Word 16} (valid : ¬ badBinding v) :
    (bitsAt v[0] 24 8 = 2 ∨ bitsAt v[0] 24 8 = 3) ∧ ¬ badVerdict v[9] := by
  simp only [badBinding, not_or] at valid
  obtain ⟨_, _, _, verdict, state⟩ := valid
  exact ⟨by omega, verdict⟩

theorem requestedStateOf_field {w : Word} (valid : bitsAt w 24 8 = 2 ∨ bitsAt w 24 8 = 3) :
    requestedStateOf (field w 24 8) = if bitsAt w 24 8 = 2 then .live else .held := by
  have held : field w 24 8 = 3 ↔ bitsAt w 24 8 = 3 := field_eq_iff ..
  simp only [requestedStateOf, held]
  obtain h | h := valid <;> rw [h] <;> rfl

section
variable (v : Vector Word 16)

theorem bindingOf_net_absent (absent : bitsAt v[1] 15 1 = 0) : (bindingOf v).net = none :=
  if_neg (by rw [netPresent, getLsbD_iff, absent]; decide)

theorem bindingOf_net_present (present : bitsAt v[1] 15 1 = 1) : (bindingOf v).net =
    some { address := netAddressOf (field v[3] 8 8) v[4] v[5] v[6] v[7], pre := field v[3] 0 8, invert := v[1].getLsbD 12 } :=
  if_pos ((getLsbD_iff ..).mpr present)

theorem bindingOf_ports_absent (absent : bitsAt v[1] 14 1 = 0) : (bindingOf v).ports = none :=
  if_neg (by rw [portsPresent, getLsbD_iff, absent]; decide)

theorem bindingOf_ports_present (present : bitsAt v[1] 14 1 = 1) :
    (bindingOf v).ports = some { lo := field v[8] 16 16, hi := field v[8] 0 16 } := if_pos ((getLsbD_iff ..).mpr present)

theorem bindingOf_proto_absent (absent : bitsAt v[1] 13 1 = 0) : (bindingOf v).proto = none :=
  if_neg (by rw [protoPresent, getLsbD_iff, absent]; decide)

theorem bindingOf_proto_present (present : bitsAt v[1] 13 1 = 1) : (bindingOf v).proto = some (field v[1] 0 8) :=
  if_pos ((getLsbD_iff ..).mpr present)
end

theorem netAddressOf_v4 {n : Nat} {family : BitVec n} (v4 : family.toNat = 0) (w4 w5 w6 w7 : Word) :
    netAddressOf family w4 w5 w6 w7 = .v4 w4 := if_pos v4

theorem netAddressOf_v6 {n : Nat} {family : BitVec n} (v6 : family.toNat = 1) (w4 w5 w6 w7 : Word) :
    netAddressOf family w4 w5 w6 w7 = .v6 (bits128 w4 w5 w6 w7) := if_neg (by rw [v6]; decide)

/-- Settles O51: the words by their fields, a valid copy by its words' bits, and the two back to back. -/
theorem bindingRecordLayoutAndRoundTrip : Obligations.BindingRecordLayoutAndRoundTrip := by
  unfold Obligations.BindingRecordLayoutAndRoundTrip
  refine ⟨fun r => ?words, fun v valid => ?fields, fun r state wellFormed =>
    ⟨bindingValid_words state wellFormed, bindingOf_words r state⟩⟩
  case words =>
    obtain ⟨high, low⟩ := bindingWord_octets r
    refine ⟨?state, ?flags, bindingWord_addr r, ?family, ?net, ?ports, verdictWord_toNat _, bindingWord_idle r, rfl, high, low, rfl,
      rfl⟩
    case state =>
      rw [bindingWord_state]
      cases r.state <;> rfl
    case flags =>
      rw [bindingWord_flags]
      rcases r.net with _ | ⟨_ | _, _, _⟩ <;> cases r.proto <;> cases r.role <;> rfl
    case family =>
      rw [bindingWord_family]
      rcases r.net with _ | ⟨_ | _, _, _⟩ <;> simp [netFields, NetAddress.family]
    case net =>
      obtain ⟨w4, w5, w6, w7⟩ := bindingWords_net r
      simp only [w4, w5, w6, w7, words128_toNat]
      rcases r.net with _ | ⟨a | a, _, _⟩
      · rfl
      · exact (toNat_append_sum a 0#96).trans (Nat.add_zero _)
      · rfl
    case ports =>
      rw [bindingWord_ports]
      cases r.ports <;> rfl
  case fields =>
    obtain ⟨state, verdict⟩ := not_badBinding valid
    refine ⟨requestedStateOf_field state, toNat_getLsbD .., toNat_field .., ?role, ?addr, bindingOf_net_absent v, ?net,
      bindingOf_ports_absent v, ?ports, bindingOf_proto_absent v, ?proto, verdictOf_number verdict⟩
    case role => simp only [bindingOf, roleOf, toNat_field]
    case addr => simp only [bindingOf, addrOf, toNat_field]
    case net =>
      intro present
      refine ⟨_, bindingOf_net_present v present, toNat_field .., toNat_getLsbD .., fun v4 => ?_, fun v6 => ?_⟩
      · exact netAddressOf_v4 ((toNat_field ..).trans v4) ..
      · exact ⟨_, netAddressOf_v6 ((toNat_field ..).trans v6) .., bits128_toNat ..⟩
    case ports =>
      intro present
      exact ⟨_, bindingOf_ports_present v present, toNat_field .., toNat_field ..⟩
    case proto =>
      intro present
      exact ⟨_, bindingOf_proto_present v present, toNat_field ..⟩

end Sys2Proof.Machine
end

section
/-! PROOFS. Requests and responses as words, and requests back (R46, R47, R62, R68, R187; Tables 11-9 and 11-10). -/

namespace Sys2Proof.Machine

/-! ### The bits of a request (Table 11-9) -/

section
variable (v : RequestWords)

theorem keyOf_net_absent (absent : bitsAt v[0] 16 1 = 0) : (keyOf v).net = none :=
  if_neg (by rw [getLsbD_iff, absent]; decide)

theorem keyOf_net_present (present : bitsAt v[0] 16 1 = 1) :
    (keyOf v).net = some (netAddressOf (field v[0] 10 2) v[4] v[5] v[6] v[7]) := if_pos ((getLsbD_iff ..).mpr present)

theorem keyOf_port_absent (absent : bitsAt v[0] 15 1 = 0) : (keyOf v).port = none :=
  if_neg (by rw [getLsbD_iff, absent]; decide)

theorem keyOf_port_present (present : bitsAt v[0] 15 1 = 1) : (keyOf v).port = some (field v[1] 16 16) :=
  if_pos ((getLsbD_iff ..).mpr present)

theorem keyOf_proto_absent (absent : bitsAt v[0] 14 1 = 0) : (keyOf v).proto = none :=
  if_neg (by rw [getLsbD_iff, absent]; decide)

theorem keyOf_proto_present (present : bitsAt v[0] 14 1 = 1) : (keyOf v).proto = some (field v[1] 8 8) :=
  if_pos ((getLsbD_iff ..).mpr present)

theorem keyOf_role (valid : bitsAt v[0] 12 2 ≤ 1) :
    (keyOf v).role = if bitsAt v[0] 12 2 = 0 then .source else .destination := by
  simp only [keyOf, roleOf, toNat_field]
  split
  · rfl
  · rw [if_pos (by omega)]

theorem requestOf_lookup (kind : bitsAt v[0] 30 2 = 0) :
    (requestOf v).question = .lookup (v[0].getLsbD 17) (keyOf v) (field v[3] 0 16) :=
  if_pos ((toNat_field ..).trans kind)

theorem requestOf_probe (kind : bitsAt v[0] 30 2 = 1) : (requestOf v).question = .probe (keyOf v) := by
  simp only [requestOf, toNat_field, kind, one_ne_zero, if_false, if_true]

theorem requestOf_touch (kind : bitsAt v[0] 30 2 = 2) : (requestOf v).question = .touch (field v[0] 0 10) (field v[1] 0 8) := by
  simp only [requestOf, toNat_field, kind, OfNat.ofNat_ne_zero, OfNat.ofNat_ne_one, if_false]
end

/-! ### The words of a request -/

/-- FAMILY of a key, 0 without a network address (Table 11-9). -/
def Key.family (k : Key) : BitVec 2 := match k.net with | some (.v6 _) => 1 | _ => 0

/-- NET_ADDR of a key in 128 bits, zero without a network address (Table 11-9). -/
def Key.netBits (k : Key) : BitVec 128 := match k.net with | some a => a.bits | none => 0

/-- The two bits of a ROLE. -/
theorem roleBits_toNat (x : Role) : (x.code.extractLsb' 0 2).toNat = x.code.toNat := by cases x <;> rfl

section
variable (k : Key) (r : Request) (kind : BitVec 2) (learn : Bool) (length : BitVec 16)

theorem requestWord_head : (k.requestWords r kind learn length)[0].toNat =
    kind.toNat * 2 ^ 30 + r.tag.toNat * 2 ^ 24 + r.domain.toNat * 2 ^ 20 + r.rpl.toNat * 2 ^ 18 + learn.toNat * 2 ^ 17 +
      k.net.isSome.toNat * 2 ^ 16 + k.port.isSome.toNat * 2 ^ 15 + k.proto.isSome.toNat * 2 ^ 14 + k.role.code.toNat * 2 ^ 12 +
      k.family.toNat * 2 ^ 10 := by
  change (kind ++ r.tag ++ r.domain ++ r.rpl ++ (bit learn ++ bit k.net.isSome ++ bit k.port.isSome ++ bit k.proto.isSome) ++
    k.role.code.extractLsb' 0 2 ++ k.family ++ 0#10).toNat = _
  simp only [toNat_append_sum, toNat_bit, roleBits_toNat, BitVec.toNat_ofNat]
  omega

theorem requestWord_ports : (k.requestWords r kind learn length)[1].toNat =
    (k.port.getD 0).toNat * 2 ^ 16 + (k.proto.getD 0).toNat * 2 ^ 8 := by
  change (k.port.getD 0 ++ k.proto.getD 0 ++ 0#8).toNat = _
  simp only [toNat_append_sum, BitVec.toNat_ofNat]
  omega

theorem requestWord_addr : (k.requestWords r kind learn length)[2].toNat =
    k.addr.a0.toNat * 2 ^ 24 + k.addr.a1.toNat * 2 ^ 16 + k.addr.a2.toNat * 2 ^ 8 + k.addr.a3.toNat := by
  change (k.addr.a0 ++ k.addr.a1 ++ k.addr.a2 ++ k.addr.a3).toNat = _
  simp only [toNat_append_sum]
  omega

theorem requestWord_length : (k.requestWords r kind learn length)[3].toNat =
    k.addr.a4.toNat * 2 ^ 24 + k.addr.a5.toNat * 2 ^ 16 + length.toNat := by
  change (k.addr.a4 ++ k.addr.a5 ++ length).toNat = _
  simp only [toNat_append_sum]
  omega

theorem requestWords_net : (k.requestWords r kind learn length)[4] = k.netBits.extractLsb' 96 32 ∧
    (k.requestWords r kind learn length)[5] = k.netBits.extractLsb' 64 32 ∧
    (k.requestWords r kind learn length)[6] = k.netBits.extractLsb' 32 32 ∧
    (k.requestWords r kind learn length)[7] = k.netBits.extractLsb' 0 32 := ⟨rfl, rfl, rfl, rfl⟩

/-! ### Reading a key back -/

theorem keyFlags_le : (k.net.isSome.toNat ≤ 1 ∧ k.port.isSome.toNat ≤ 1 ∧ k.proto.isSome.toNat ≤ 1) ∧ learn.toNat ≤ 1 ∧
    k.role.code.toNat ≤ 2 :=
  ⟨⟨Bool.toNat_le _, Bool.toNat_le _, Bool.toNat_le _⟩, Bool.toNat_le _, role_le _⟩

/-- The fields of word 0 before the key's. -/
theorem head_of_requestWord : bitsAt (k.requestWords r kind learn length)[0] 30 2 = kind.toNat ∧
    tagOf (k.requestWords r kind learn length) = r.tag ∧ field (k.requestWords r kind learn length)[0] 20 4 = r.domain ∧
    field (k.requestWords r kind learn length)[0] 18 2 = r.rpl ∧ (k.requestWords r kind learn length)[0].getLsbD 17 = learn := by
  obtain ⟨⟨net, port, proto⟩, learns, role⟩ := keyFlags_le k learn
  refine ⟨?_, field_eq_of_bitsAt ?_, field_eq_of_bitsAt ?_, field_eq_of_bitsAt ?_, getLsbD_eq_of_bitsAt ?_⟩
  all_goals
    rw [bitsAt, requestWord_head]
    omega

/-- The key's fields of word 0. -/
theorem key_of_requestWord : bitsAt (k.requestWords r kind learn length)[0] 16 1 = k.net.isSome.toNat ∧
    bitsAt (k.requestWords r kind learn length)[0] 15 1 = k.port.isSome.toNat ∧
    bitsAt (k.requestWords r kind learn length)[0] 14 1 = k.proto.isSome.toNat ∧
    bitsAt (k.requestWords r kind learn length)[0] 12 2 = k.role.code.toNat ∧
    bitsAt (k.requestWords r kind learn length)[0] 10 2 = k.family.toNat := by
  obtain ⟨⟨net, port, proto⟩, learns, role⟩ := keyFlags_le k learn
  refine ⟨?_, ?_, ?_, ?_, ?_⟩
  all_goals
    rw [bitsAt, requestWord_head]
    omega

theorem ports_of_requestWord : field (k.requestWords r kind learn length)[1] 16 16 = k.port.getD 0 ∧
    field (k.requestWords r kind learn length)[1] 8 8 = k.proto.getD 0 := by
  refine ⟨field_eq_of_bitsAt ?_, field_eq_of_bitsAt ?_⟩
  all_goals
    rw [bitsAt, requestWord_ports]
    omega

theorem length_of_requestWord : field (k.requestWords r kind learn length)[3] 0 16 = length :=
  field_eq_of_bitsAt (by rw [bitsAt, requestWord_length]; omega)

theorem addrOf_requestWords :
    addrOf (k.requestWords r kind learn length)[2] (k.requestWords r kind learn length)[3] = k.addr := by
  have a0 : field (k.requestWords r kind learn length)[2] 24 8 = k.addr.a0 :=
    field_eq_of_bitsAt (by rw [bitsAt, requestWord_addr]; omega)
  have a1 : field (k.requestWords r kind learn length)[2] 16 8 = k.addr.a1 :=
    field_eq_of_bitsAt (by rw [bitsAt, requestWord_addr]; omega)
  have a2 : field (k.requestWords r kind learn length)[2] 8 8 = k.addr.a2 :=
    field_eq_of_bitsAt (by rw [bitsAt, requestWord_addr]; omega)
  have a3 : field (k.requestWords r kind learn length)[2] 0 8 = k.addr.a3 :=
    field_eq_of_bitsAt (by rw [bitsAt, requestWord_addr]; omega)
  have a4 : field (k.requestWords r kind learn length)[3] 24 8 = k.addr.a4 :=
    field_eq_of_bitsAt (by rw [bitsAt, requestWord_length]; omega)
  have a5 : field (k.requestWords r kind learn length)[3] 16 8 = k.addr.a5 :=
    field_eq_of_bitsAt (by rw [bitsAt, requestWord_length]; omega)
  simp only [addrOf, a0, a1, a2, a3, a4, a5]

theorem roleOf_toNat {n : Nat} {c : BitVec n} {x : Role} (code : c.toNat = x.code.toNat) : roleOf c = x := by
  rw [← roleOf_code x, roleOf, roleOf, code]

theorem netAddressOf_toNat {m n : Nat} {c : BitVec m} {e : BitVec n} (code : c.toNat = e.toNat) (w4 w5 w6 w7 : Word) :
    netAddressOf c w4 w5 w6 w7 = netAddressOf e w4 w5 w6 w7 := by
  rw [netAddressOf, netAddressOf, code]

theorem family_of_net {k : Key} {a : NetAddress} (present : k.net = some a) : k.family.toNat = a.family.toNat := by
  rw [Key.family, present]
  cases a <;> rfl

theorem netBits_of_net {k : Key} {a : NetAddress} (present : k.net = some a) : k.netBits = a.bits := by
  rw [Key.netBits, present]

theorem keyOf_requestWords_net : (keyOf (k.requestWords r kind learn length)).net = k.net := by
  obtain ⟨netFlag, _, _, _, family⟩ := key_of_requestWord k r kind learn length
  cases present : k.net with
  | none => exact keyOf_net_absent _ (by rw [netFlag, present]; rfl)
  | some a =>
    obtain ⟨w4, w5, w6, w7⟩ := requestWords_net k r kind learn length
    rw [keyOf_net_present _ (by rw [netFlag, present]; rfl), w4, w5, w6, w7, netBits_of_net present,
      netAddressOf_toNat (e := a.family) (by rw [toNat_field, family, family_of_net present]), netAddressOf_words]

theorem keyOf_requestWords_port : (keyOf (k.requestWords r kind learn length)).port = k.port := by
  obtain ⟨_, portFlag, _⟩ := key_of_requestWord k r kind learn length
  cases present : k.port with
  | none => exact keyOf_port_absent _ (by rw [portFlag, present]; rfl)
  | some p =>
    rw [keyOf_port_present _ (by rw [portFlag, present]; rfl), (ports_of_requestWord k r kind learn length).1, present]
    rfl

theorem keyOf_requestWords_proto : (keyOf (k.requestWords r kind learn length)).proto = k.proto := by
  obtain ⟨_, _, protoFlag, _⟩ := key_of_requestWord k r kind learn length
  cases present : k.proto with
  | none => exact keyOf_proto_absent _ (by rw [protoFlag, present]; rfl)
  | some p =>
    rw [keyOf_proto_present _ (by rw [protoFlag, present]; rfl), (ports_of_requestWord k r kind learn length).2, present]
    rfl

theorem keyOf_requestWords : keyOf (k.requestWords r kind learn length) = k := by
  obtain ⟨_, _, _, role, _⟩ := key_of_requestWord k r kind learn length
  have parts (v : RequestWords) : keyOf v = { role := roleOf (field v[0] 12 2), addr := addrOf v[2] v[3], net := (keyOf v).net
                                              port := (keyOf v).port, proto := (keyOf v).proto } := rfl
  rw [parts, roleOf_toNat ((toNat_field ..).trans role), addrOf_requestWords, keyOf_requestWords_net, keyOf_requestWords_port,
    keyOf_requestWords_proto]

/-- The words of a key whose ROLE is not EITHER pass R46's check of the key. -/
theorem requestWords_keyValid (role : k.role ≠ .either) : bitsAt (k.requestWords r kind learn length)[0] 12 2 ≤ 1 ∧
    bitsAt (k.requestWords r kind learn length)[0] 10 2 ≤ 1 := by
  obtain ⟨_, _, _, roleBits, family⟩ := key_of_requestWord k r kind learn length
  rw [roleBits, family]
  constructor
  · cases h : k.role with
    | source | destination => decide
    | either => exact absurd h role
  · unfold Key.family
    split <;> decide
end

end Sys2Proof.Machine
end

section
/-! PROOFS. Whole requests back from their words, and the words of responses (R46, R68, R130, R187; Tables 11-9 and 11-10). -/

namespace Sys2Proof.Machine

/-! ### Whole requests -/

section
variable {r : Request}

theorem words_lookup {learn : Bool} {k : Key} {length : BitVec 16} (question : r.question = .lookup learn k length) :
    r.words = k.requestWords r 0 learn length := by
  rw [Request.words, question]

theorem words_probe {k : Key} (question : r.question = .probe k) : r.words = k.requestWords r 1 false 0 := by
  rw [Request.words, question]

theorem words_touch {i : BitVec 10} {gen : Byte} (question : r.question = .touch i gen) :
    r.words = #v[2#2 ++ r.tag ++ r.domain ++ r.rpl ++ 0#8 ++ i, 0#24 ++ gen, 0, 0, 0, 0, 0, 0] := by
  rw [Request.words, question]

theorem wellFormed_lookup {learn : Bool} {k : Key} {length : BitVec 16} (question : r.question = .lookup learn k length)
    (wellFormed : r.wellFormed = true) : k.role ≠ .either ∧ 1 ≤ length.toNat ∧ length.toNat ≤ 16383 := by
  simpa only [Request.wellFormed, question, Bool.and_eq_true, decide_eq_true_eq, and_assoc] using wellFormed

theorem wellFormed_probe {k : Key} (question : r.question = .probe k) (wellFormed : r.wellFormed = true) : k.role ≠ .either := by
  simpa only [Request.wellFormed, question, decide_eq_true_eq] using wellFormed

theorem touchWord_head {i : BitVec 10} {gen : Byte} (question : r.question = .touch i gen) : r.words[0].toNat =
    2 * 2 ^ 30 + r.tag.toNat * 2 ^ 24 + r.domain.toNat * 2 ^ 20 + r.rpl.toNat * 2 ^ 18 + i.toNat := by
  simp only [words_touch question]
  change (2#2 ++ r.tag ++ r.domain ++ r.rpl ++ 0#8 ++ i).toNat = _
  simp only [toNat_append_sum, BitVec.toNat_ofNat]
  omega

theorem touchWord_gen {i : BitVec 10} {gen : Byte} (question : r.question = .touch i gen) : r.words[1].toNat = gen.toNat := by
  simp only [words_touch question]
  change (0#24 ++ gen).toNat = _
  simp only [toNat_append_sum, BitVec.toNat_ofNat]
  omega

/-- A request is known by its tag, domain, RPL and question. -/
theorem requestOf_eq {v : RequestWords} (tag : tagOf v = r.tag) (domain : field v[0] 20 4 = r.domain) (rpl : field v[0] 18 2 = r.rpl)
    (question : (requestOf v).question = r.question) : requestOf v = r := by
  have parts : requestOf v = { tag := tagOf v, domain := field v[0] 20 4, rpl := field v[0] 18 2
                               question := (requestOf v).question } := rfl
  rw [parts, tag, domain, rpl, question]

/-- Every request that the queue may hold is read back from its words, and they are valid. -/
theorem request_roundTrip (wellFormed : r.wellFormed = true) : requestValid r.words = true ∧ requestOf r.words = r := by
  cases question : r.question with
  | lookup learn k length =>
    obtain ⟨role, least, most⟩ := wellFormed_lookup question wellFormed
    obtain ⟨kind, tag, domain, rpl, learns⟩ := head_of_requestWord k r 0 learn length
    obtain ⟨roleOk, familyOk⟩ := requestWords_keyValid k r 0 learn length role
    have lengthIs := length_of_requestWord k r 0 learn length
    rw [words_lookup question]
    refine ⟨(requestValid_iff _).mpr ⟨by rw [kind]; decide, fun _ => ⟨roleOk, fun _ => familyOk⟩, fun _ => ?_⟩,
      requestOf_eq tag domain rpl ?_⟩
    · rw [← toNat_field, lengthIs]
      exact ⟨least, most⟩
    · rw [requestOf_lookup _ kind, learns, keyOf_requestWords, lengthIs, question]
  | probe k =>
    have role := wellFormed_probe question wellFormed
    obtain ⟨kind, tag, domain, rpl, _⟩ := head_of_requestWord k r 1 false 0
    obtain ⟨roleOk, familyOk⟩ := requestWords_keyValid k r 1 false 0 role
    rw [words_probe question]
    refine ⟨(requestValid_iff _).mpr ⟨by rw [kind]; decide, fun _ => ⟨roleOk, fun _ => familyOk⟩, fun lookup => ?_⟩,
      requestOf_eq tag domain rpl ?_⟩
    · rw [kind] at lookup
      cases lookup
    · rw [requestOf_probe _ kind, keyOf_requestWords, question]
  | touch i gen =>
    have head := touchWord_head question
    have kind : bitsAt r.words[0] 30 2 = 2 := by rw [bitsAt, head]; omega
    have tag : tagOf r.words = r.tag := field_eq_of_bitsAt (by rw [bitsAt, head]; omega)
    have domain : field r.words[0] 20 4 = r.domain := field_eq_of_bitsAt (by rw [bitsAt, head]; omega)
    have rpl : field r.words[0] 18 2 = r.rpl := field_eq_of_bitsAt (by rw [bitsAt, head]; omega)
    have slot : field r.words[0] 0 10 = i := field_eq_of_bitsAt (by rw [bitsAt, head]; omega)
    have gen_eq : field r.words[1] 0 8 = gen := field_eq_of_bitsAt (by rw [bitsAt, touchWord_gen question]; omega)
    refine ⟨(requestValid_iff _).mpr ⟨by omega, by omega, by omega⟩, requestOf_eq tag domain rpl ?_⟩
    rw [requestOf_touch _ kind, slot, gen_eq, question]
end

/-! ### Responses (Table 11-10) -/

/-- The outcomes in the order of Table 11-10. -/
def linkOutcomes : List LinkOutcome :=
  [.hit, .provisional, .learned, .touched, .held, .none, .noAccess, .defaulted, .fault, .off, .busy, .notReady, .malformed]

/-- The conditions that a response can report, in the order of Table 11-10. -/
def reportedConditions : List (Option Condition) := [none, some .denied, some .stale, some .held, some .full, some .miss]

theorem outcome_toNat (o : LinkOutcome) : o.code.toNat = linkOutcomes.idxOf o := by cases o <;> decide

theorem conditionCode_toNat {c : Option Condition} (reported : c ∈ reportedConditions) :
    (conditionCode c).toNat = reportedConditions.idxOf c := by
  fin_cases reported <;> decide

section
variable (a : Response)

theorem responseWord_head (reported : a.condition ∈ reportedConditions) : a.words[0].toNat =
    a.tag.toNat * 2 ^ 26 + linkOutcomes.idxOf a.outcome * 2 ^ 22 + reportedConditions.idxOf a.condition * 2 ^ 19 +
      a.handle.isSome.toNat * 2 ^ 18 + a.verdict.isSome.toNat * 2 ^ 17 + (a.handle.map Handle.slot).getD 0 % 2 ^ 10 := by
  change (a.tag ++ a.outcome.code ++ conditionCode a.condition ++ bit a.handle.isSome ++ bit a.verdict.isSome ++ 0#7 ++
    BitVec.ofNat 10 ((a.handle.map Handle.slot).getD 0)).toNat = _
  simp only [toNat_append_sum, toNat_bit, outcome_toNat, conditionCode_toNat reported, BitVec.toNat_ofNat]
  omega

theorem responseWord_gen : a.words[1].toNat = ((a.handle.map Handle.gen).getD 0).toNat := by
  change (0#24 ++ (a.handle.map Handle.gen).getD 0).toNat = _
  simp only [toNat_append_sum, BitVec.toNat_ofNat]
  omega

theorem responseWord_verdict : a.words[2] = (a.verdict.map Verdict.word).getD 0 := rfl
end

/-- Settles O52: a valid request by its words' bits, a response's words by its fields, and a request read back. -/
theorem requestAndResponseLayouts : Obligations.RequestAndResponseLayouts := by
  unfold Obligations.RequestAndResponseLayouts
  refine ⟨fun v valid => ?request, fun v => toNat_field .., fun a => ?response, fun r wellFormed => request_roundTrip wellFormed⟩
  case request =>
    intro q keyed
    obtain ⟨_, keyValid, _⟩ := (requestValid_iff v).mp valid
    have key (asks : bitsAt v[0] 30 2 ≤ 1) : keyed (keyOf v) := by
      obtain ⟨role, _⟩ := keyValid asks
      refine ⟨keyOf_role v role, by simp only [keyOf, addrOf, toNat_field], keyOf_net_absent v, fun present v4 => ?_,
        fun present v6 => ⟨_, ?_, bits128_toNat ..⟩, keyOf_port_absent v,
        fun present => ⟨_, keyOf_port_present v present, toNat_field ..⟩, keyOf_proto_absent v,
        fun present => ⟨_, keyOf_proto_present v present, toNat_field ..⟩⟩
      · rw [keyOf_net_present v present, netAddressOf_v4 ((toNat_field ..).trans v4)]
      · rw [keyOf_net_present v present, netAddressOf_v6 ((toNat_field ..).trans v6)]
    refine ⟨toNat_field .., toNat_field .., toNat_field .., fun kind => ?lookup, fun kind => ?probe, fun kind => ?touch⟩
    case lookup =>
      exact ⟨_, _, _, requestOf_lookup v kind, toNat_getLsbD .., toNat_field .., key (by omega)⟩
    case probe => exact ⟨_, requestOf_probe v kind, key (by omega)⟩
    case touch => exact ⟨_, _, requestOf_touch v kind, toNat_field .., toNat_field ..⟩
  case response =>
    intro outcomes conditions reported
    refine ⟨(responseWord_head a reported).trans ?_, (responseWord_gen a).trans ?_, ?_⟩
    · cases a.handle <;> rfl
    · cases a.handle <;> rfl
    · rw [responseWord_verdict]
      cases a.verdict with
      | none => rfl
      | some v => exact verdictWord_toNat v

end Sys2Proof.Machine
end
